-- ==== Sys2Proof/Word.lean ====
section
/-! DEFINITION. The word types of the ASP: 32-bit words (R16), binary32 values as their bit patterns (R11) and the 256 samples of an audio register (R30). -/

namespace Sys2Proof

/-- Eight bits of a word when a host carries words as bytes (R73). -/
abbrev Byte := BitVec 8

/-- One 32-bit word of a descriptor, an event, a command or STATUS (R16, R85). -/
abbrev Word := BitVec 32

/-- One IEEE 754 binary32 value, held as its bit pattern (R11): copies move bits exactly (R15). -/
abbrev F32 := BitVec 32

/-- The contents of one audio register or Audio port local: `N = 256` values (R30, R35). -/
abbrev Samples := Vector F32 256

end Sys2Proof
end

