-- ==== Sys2Proof/Config.lean ====
section
/-! DEFINITION. What is fixed for the model's lifetime: the three numbers the source settles, the parameters of R9 with their defaults, the constraints of R10, and the free values. -/

namespace Sys2Proof

/-- `N`, samples per audio register, port and chunk (R9: "N fixed at 256"). -/
abbrev Config.chunk : Nat := 256

/-- `PORT_CAP`, capacity of a node's port collection (R9); no kind uses more than 7. -/
abbrev Config.portCap : Nat := 32

/-- The bits a NaN result is drawn from (R15): a free value, one for every draw number. It has no body, so nothing can be proved of its values (log entry 7). -/
opaque Config.freeNaN : Nat → BitVec 32

/-- What a fresh render buffer holds before the output copy writes it (R75: "Its initial contents are never read"): a free value, one for every draw number (log entry 12). -/
opaque Config.freeSample : Nat → F32

/-- A (file, index) pair: the register `TIME_REG` names (R9). -/
inductive RegRef where
  | audio (k : Nat)
  | control (k : Nat)
  deriving DecidableEq, Repr

/-- `RETRIG_SCOPE`: which channels' time register a NoteOn resets (R179). -/
inductive RetrigScope where
  | messageChannel
  | allActive
  deriving DecidableEq, Repr

/-- `OSC_WRAP` (R9, R129): any function of the phase, as plain data (log entry 8). -/
inductive OscWrap where
  /-- The default, `fmod(phase, 1.0)`. -/
  | fmod
  /-- A floored modulo, in `[0, 1)` for every finite phase (C6). -/
  | floored
  /-- The function that takes each listed phase to its listed value, and any other as the default does. Every function on binary32 values is such a table. -/
  | table (entries : List (F32 × F32))
  deriving DecidableEq, Repr

/-- `ADSR_SUSTAIN`: the sustain segment sets the voltage, or leaves it (R133). -/
inductive AdsrSustain where
  | explicit
  | hold
  deriving DecidableEq, Repr

/-- Which segment an Adsr with a NaN decay takes while `time < attack`: R134's pseudocode and R137's text differ (log entry 25). -/
inductive NanDecay where
  /-- R134's pseudocode: `time < attack` is tested first, and holds. -/
  | attack
  /-- R137: "NaN `attack` or `decay`: both comparisons are false, so the sustain segment is taken". -/
  | sustain
  deriving DecidableEq, Repr

/-- `MIX_MODE`: how active channels combine (R210). -/
inductive MixMode where
  | sum
  | overwrite
  deriving DecidableEq, Repr

/-- The parameters of R9, "an argument of the model" (R48, log entry 1), and `nanDecay`, the model's own. -/
structure Params where
  /-- `NODE_CAP`, maximum nodes per Stack. -/
  nodeCap : Nat
  /-- `NCH`, number of channel slots. -/
  nch : Nat
  /-- `NA`, audio registers per StackData. -/
  na : Nat
  /-- `NC`, control registers per StackData. -/
  nc : Nat
  /-- `CMD_CAP`, capacity of CMDQ. -/
  cmdCap : Nat
  /-- `MIRROR_CAP`, capacity of MIRQ. -/
  mirrorCap : Nat
  /-- `PITCH_CREG`, the control register that receives the pitch. -/
  pitchCreg : Nat
  /-- `GATE_CREG`, the control register that receives the gate. -/
  gateCreg : Nat
  /-- `TIME_REG`, the register a NoteOn resets. -/
  timeReg : RegRef
  /-- `RETRIG_SCOPE`. -/
  retrigScope : RetrigScope
  /-- `NOTE_FREQ`, 128 frequencies, note 0 first (R167). -/
  noteFreq : List F32
  /-- `PITCH_INIT`, the pitch after power-on reset. -/
  pitchInit : F32
  /-- `HELD_W`, width of the held-note counter. -/
  heldW : Nat
  /-- `VEL0_NOTEOFF`. -/
  vel0NoteOff : Bool
  /-- `OTHER_WRITES`. -/
  otherWrites : Bool
  /-- `OSC_WRAP`. -/
  oscWrap : OscWrap
  /-- `ADSR_SUSTAIN`. -/
  adsrSustain : AdsrSustain
  /-- The model's own, no parameter of R9: the reading of a NaN decay in the attack (log entry 25). -/
  nanDecay : NanDecay
  /-- `MIX_MODE`. -/
  mixMode : MixMode
  /-- `L_MAX`, OPEN in the spec: `none` sets no bound (log entry 2). -/
  lMax : Option Nat
  deriving DecidableEq, Repr

/-- The defaults of R9. DESIGN CHOICE (log entry 25): `nanDecay`, of which R9 says nothing, follows R134's pseudocode. -/
def Params.default : Params where
  nodeCap := 16
  nch := 16
  na := 16
  nc := 16
  cmdCap := 8
  mirrorCap := 128
  pitchCreg := 0
  gateCreg := 1
  timeReg := .control 2
  retrigScope := .messageChannel
  noteFreq := Machine.noteFreqDefault
  pitchInit := 0#32
  heldW := 32
  vel0NoteOff := false
  otherWrites := true
  oscWrap := .fmod
  adsrSustain := .explicit
  nanDecay := .attack
  mixMode := .sum
  lMax := none

/-- `TIME_REG` names a register that exists and is neither the pitch nor the gate register (R10). -/
def Params.timeRegOk (p : Params) : Bool :=
  match p.timeReg with
  | .audio k => decide (k < p.na)
  | .control k => decide (k < p.nc) && decide (k ≠ p.pitchCreg) && decide (k ≠ p.gateCreg)

/-- The constraints of R10 on a configuration, with the shape of the NOTE_FREQ table (R167). A configuration that breaks one has no semantics. -/
def Params.wf (p : Params) : Bool :=
  decide (1 ≤ p.na ∧ p.na ≤ 256 ∧ p.nc ≤ 256 ∧
    p.pitchCreg < p.nc ∧ p.gateCreg < p.nc ∧ p.pitchCreg ≠ p.gateCreg ∧
    1 ≤ p.nodeCap ∧ p.nodeCap ≤ 255 ∧ 1 ≤ p.nch ∧ p.nch ≤ 256 ∧
    1 ≤ p.cmdCap ∧ 1 ≤ p.mirrorCap ∧ p.timeRegOk = true ∧ p.noteFreq.length = 128)

end Sys2Proof
end

