-- ==== Sys2Proof/Machine/Float.lean ====
section
/-! DEFINITION. The binary32 operations of R12 to R15. Every finite value is an integer number of units of `2^-149`: an operation computes exactly on those integers and rounds once, to nearest, ties to even. -/

namespace Sys2Proof.Machine

/-- `+0.0`. -/
abbrev f0 : F32 := 0x00000000#32
/-- `1.0`. -/
abbrev f1 : F32 := 0x3F800000#32
/-- `-1.0`. -/
abbrev fm1 : F32 := 0xBF800000#32
/-- `2.0`. -/
abbrev f2 : F32 := 0x40000000#32

/-- The sign bit is set. -/
def isNeg (x : F32) : Bool := decide (2 ^ 31 ≤ x.toNat)

/-- The exponent and fraction bits, as a number; larger magnitudes have larger numbers. -/
def magBits (x : F32) : Nat := x.toNat % 2 ^ 31

/-- `isNaN(x)` (R12). -/
def isNaN (x : F32) : Bool := decide (0x7F800000 < magBits x)

/-- `x` is `±∞`. -/
def isInf (x : F32) : Bool := decide (magBits x = 0x7F800000)

/-- The magnitude of a finite value in units of `2^-149`. -/
def units (x : F32) : Nat :=
  if magBits x / 2 ^ 23 = 0 then magBits x % 2 ^ 23
  else (2 ^ 23 + magBits x % 2 ^ 23) * 2 ^ (magBits x / 2 ^ 23 - 1)

/-- A finite value in units of `2^-149`, with its sign. -/
def sunits (x : F32) : Int := if isNeg x then -(units x : Int) else (units x : Int)

/-- The exponent of the rounding quantum of `num / den` units: 24 significant bits, and never below one unit, so subnormals are kept (R12). -/
def quantum (num den : Nat) : Nat := Nat.log2 (num / den) - 23

/-- `num / den` rounded to an integer, to nearest, ties to even (R12). -/
def roundHalfEven (num den : Nat) : Nat :=
  let q := num / den
  let r := num % den
  if den < 2 * r ∨ (2 * r = den ∧ q % 2 = 1) then q + 1 else q

/-- The magnitude bits of the binary32 value nearest to `num / den` units; past the largest finite value it is `∞` (R12). -/
def roundUnits (num den : Nat) : Nat :=
  let t := quantum num den
  min (t * 2 ^ 23 + roundHalfEven num (den * 2 ^ t)) 0x7F800000

/-- A value from its sign and its magnitude bits. -/
def pack (neg : Bool) (m : Nat) : F32 := BitVec.ofNat 32 ((if neg then 2 ^ 31 else 0) + m)

/-- `±∞`. -/
def finf (neg : Bool) : F32 := pack neg 0x7F800000

/-- `±0.0`. -/
def fzero (neg : Bool) : F32 := pack neg 0

/-- The NaN of draw number `d` (R15): the free bits give its sign and its payload, and any NaN can be drawn (log entry 7). -/
def nan (d : Nat) : F32 :=
  let w := Config.freeNaN d
  pack (isNeg w) (0x7F800000 + max 1 (w.toNat % 2 ^ 23))

/-- `|x|` (R13): the sign bit cleared, every other bit kept, of a NaN too (R15). -/
def fabs (x : F32) : F32 := x &&& 0x7FFFFFFF#32

/-- `a + b` (R12); `d` is its NaN draw. -/
def fadd (d : Nat) (a b : F32) : F32 :=
  if isNaN a || isNaN b then nan d
  else if isInf a then (if isInf b && isNeg a != isNeg b then nan d else a)
  else if isInf b then b
  else if sunits a + sunits b = 0 then fzero (isNeg a && isNeg b)
  else pack (decide (sunits a + sunits b < 0)) (roundUnits (sunits a + sunits b).natAbs 1)

/-- `x` with its sign bit inverted; used for subtraction only. -/
def flipSign (x : F32) : F32 := x ^^^ 0x80000000#32

/-- `a - b` (R12). -/
def fsub (d : Nat) (a b : F32) : F32 := fadd d a (flipSign b)

/-- `a * b` (R12). -/
def fmul (d : Nat) (a b : F32) : F32 :=
  let neg := isNeg a != isNeg b
  if isNaN a || isNaN b then nan d
  else if isInf a then (if magBits b = 0 then nan d else finf neg)
  else if isInf b then (if magBits a = 0 then nan d else finf neg)
  else pack neg (roundUnits (units a * units b) (2 ^ 149))

/-- `a / b` (R12). -/
def fdiv (d : Nat) (a b : F32) : F32 :=
  let neg := isNeg a != isNeg b
  if isNaN a || isNaN b then nan d
  else if isInf a then (if isInf b then nan d else finf neg)
  else if isInf b then fzero neg
  else if magBits b = 0 then (if magBits a = 0 then nan d else finf neg)
  else pack neg (roundUnits (units a * 2 ^ 149) (units b))

/-- `floor(x)` (R13). -/
def ffloor (d : Nat) (x : F32) : F32 :=
  if isNaN x then nan d
  else if isInf x then x
  else
    let z := sunits x / (2 ^ 149 : Int)
    pack (isNeg x) (roundUnits (z.natAbs * 2 ^ 149) 1)

/-- `fmod(x, y)` (R13): exact, with the sign of `x`. DESIGN CHOICE (log entry 11; no rule reaches one of these, since the only use is `fmod(phase, 1.0)`): `fmod(±0, ±0)` and `fmod(±0, NaN)` are NaN, the IEEE 754 meaning of R12, though R13's "`fmod(±0, y)` is `±0`" names no exception; and, where R13 states nothing, any other `x` with `y = ±0` or `y` a NaN gives a NaN, and a finite `x` with `y = ±∞` gives `x`. -/
def ffmod (d : Nat) (x y : F32) : F32 :=
  if isNaN x || isNaN y || isInf x || decide (magBits y = 0) then nan d
  else if isInf y then x
  else pack (isNeg x) (roundUnits (units x % units y) 1)

/-- `u32_to_f32(k)` (R13). -/
def u32ToF32 (k : BitVec 32) : F32 := pack false (roundUnits (k.toNat * 2 ^ 149) 1)

/-- The place of a value that is no NaN in the order of the reals, with `-0.0` and `+0.0` at one place. -/
def fkey (x : F32) : Int := if isNeg x then -(magBits x : Int) else (magBits x : Int)

/-- `a < b`, false with a NaN operand (R14). -/
def flt (a b : F32) : Bool := !isNaN a && !isNaN b && decide (fkey a < fkey b)

/-- `a > b`, false with a NaN operand (R14). -/
def fgt (a b : F32) : Bool := flt b a

/-- `a == b`, false with a NaN operand (R14). -/
def feq (a b : F32) : Bool := !isNaN a && !isNaN b && decide (fkey a = fkey b)

/-- `a != b`, true with a NaN operand (R14). -/
def fne (a b : F32) : Bool := !feq a b

end Sys2Proof.Machine
end

