-- ==== Sys2Proof/Syntax.lean ====
section
/-! DEFINITION. The instructions of the ASP, one constructor per row of the opcode table: node descriptors (R87), MIDI events (R97) and command messages (R102). -/

namespace Sys2Proof

/-- A port operand, the four forms of R110: what a PORTW and its CONST say (R92, R94). -/
inductive PortSpec where
  /-- `a<k>`: Audio, bound to `areg[k]`. -/
  | audio (k : BitVec 8)
  /-- `c<k>`: Control, bound to `creg[k]`. -/
  | control (k : BitVec 8)
  /-- `#v`: Control, unbound, installed with the constant `v`. -/
  | const (v : F32)
  /-- `_a`: Audio, unbound, installed with zeros. -/
  | freeAudio
  deriving DecidableEq, Repr

/-- A node descriptor: the kind (R89) and one operand per port, in the port order of R41. -/
inductive NodeDesc where
  | abs (input output : PortSpec)
  | add (input1 input2 output : PortSpec)
  | adsr (gate attack decay sustain release time output : PortSpec)
  | mul (input1 input2 output : PortSpec)
  | osc (frequency waveform pulseWidth output : PortSpec)
  deriving DecidableEq, Repr

/-- The input an encoded value arrives on; no decoder needs to tell the families apart (R86). -/
inductive Family where
  | node
  | midi
  | command
  deriving DecidableEq, Repr

/-- The instructions of the ASP (R3). -/
inductive Instr where
  /-- Abs, R120. -/
  | abs (input output : PortSpec)
  /-- Add, R122. -/
  | add (input1 input2 output : PortSpec)
  /-- Adsr, R134. -/
  | adsr (gate attack decay sustain release time output : PortSpec)
  /-- Mul, R125. -/
  | mul (input1 input2 output : PortSpec)
  /-- Oscillator, R128. -/
  | osc (frequency waveform pulseWidth output : PortSpec)
  /-- NoteOn, R170. -/
  | noteon (chan : BitVec 4) (note vel : BitVec 7)
  /-- NoteOff, R172. -/
  | noteoff (chan : BitVec 4) (note vel : BitVec 7)
  /-- Reset, R174: the three fields are carried by the word and ignored (R98). -/
  | reset (chan : BitVec 4) (note vel : BitVec 7)
  /-- Other, R175: any other event word, kept whole (R99). -/
  | other (word : Word)
  /-- SetChannel, R190. -/
  | setch (chan : BitVec 8) (nodes : List NodeDesc)
  /-- ReplaceNodes, R192. -/
  | replace (chan : BitVec 8) (nodes : List NodeDesc)
  /-- RemoveChannel, R194. -/
  | rmch (chan : BitVec 8)
  /-- ResetData, R195. -/
  | resetdata
  /-- AddNode, R197: the header's CHAN and NNODES fields and the rest of the message, of any length (R104). -/
  | addnode (chan nnodes : BitVec 8) (payload : List Word)
  deriving DecidableEq, Repr

/-- The node statement a descriptor stands for. -/
def NodeDesc.toInstr : NodeDesc → Instr
  | .abs i o => .abs i o
  | .add a b o => .add a b o
  | .adsr g a d s r t o => .adsr g a d s r t o
  | .mul a b o => .mul a b o
  | .osc f w p o => .osc f w p o

/-- The ports of a descriptor in the order of R41. -/
def NodeDesc.ports : NodeDesc → List PortSpec
  | .abs i o => [i, o]
  | .add a b o => [a, b, o]
  | .adsr g a d s r t o => [g, a, d, s, r, t, o]
  | .mul a b o => [a, b, o]
  | .osc f w p o => [f, w, p, o]

/-- `outputs()` of a descriptor, in list order (R41): Adsr has `output`, then `time`. -/
def NodeDesc.outputs : NodeDesc → List PortSpec
  | .abs _ o => [o]
  | .add _ _ o => [o]
  | .adsr _ _ _ _ _ t o => [o, t]
  | .mul _ _ o => [o]
  | .osc _ _ _ o => [o]

/-- The input an instruction arrives on (R86). -/
def Instr.family : Instr → Family
  | .abs _ _ | .add _ _ _ | .adsr _ _ _ _ _ _ _ | .mul _ _ _ | .osc _ _ _ _ => .node
  | .noteon _ _ _ | .noteoff _ _ _ | .reset _ _ _ | .other _ => .midi
  | .setch _ _ | .replace _ _ | .rmch _ | .resetdata | .addnode _ _ _ => .command

end Sys2Proof
end

