-- ==== Sys2Proof/Machine/State.lean ====
section
/-! DEFINITION. Everything the spec gives the machine, as plain data (R25 to R59), the host's side of the interfaces (R232), the reset state (R57, R245), and the reasons a step can stop. -/

namespace Sys2Proof.Machine

/-- An installed port: its binding (R35, R92) and its local value (R35, R38). -/
inductive Port where
  /-- Audio, bound to `areg[k]`. -/
  | audio (k : BitVec 8) (loc : Samples)
  /-- Control, bound to `creg[k]`. -/
  | control (k : BitVec 8) (loc : F32)
  /-- Control, unbound: the descriptor's CONST word (R94) and the local value, which a kernel may write (R36). -/
  | const (init loc : F32)
  /-- Audio, unbound. -/
  | freeAudio (loc : Samples)
  deriving DecidableEq, Repr

/-- An installed node: its ports in the order of R41 and its persistent scalars (R40, R42). -/
inductive Node where
  | abs (input output : Port)
  | add (input1 input2 output : Port)
  | adsr (gate attack decay sustain release time output : Port) (voltage previousGate : F32)
  | mul (input1 input2 output : Port)
  | osc (frequency waveform pulseWidth output : Port) (phase : F32)
  deriving DecidableEq, Repr

/-- A channel's register file: two parallel, disjoint arrays (R30, R31). -/
structure StackData where
  /-- `areg[0..NA-1]`. -/
  areg : List Samples
  /-- `creg[0..NC-1]`. -/
  creg : List F32
  deriving DecidableEq, Repr

/-- A channel's program and register file (R28). -/
structure Stack where
  /-- The node list; its order is the evaluation order. -/
  nodes : List Node
  data : StackData
  deriving DecidableEq, Repr

/-- The render position of R44: channel, chunk offset, chunk length, node index. `k = len(nodes)` is the phase Copy. The components φ and i run inside one step (log entry 4). -/
structure RenderPos where
  c : Nat
  b : Nat
  n : Nat
  k : Nat
  deriving DecidableEq, Repr

/-- The phase of a block transaction that runs next (R214). -/
inductive Stage where
  /-- Phase 1: about to pop CMDQ (R207). -/
  | drain
  /-- Phase 1: a message is popped, `run_command` is next (R207, R236). -/
  | apply (msg : List Word)
  /-- Phase 2: the next event is applied (R208). -/
  | midi
  /-- Phase 3: rendering (R209). -/
  | render (pos : RenderPos)
  /-- Phases 4 to 7: sample `j` is mixed, clamped and written (R210 to R213). -/
  | output (j : Nat)
  deriving DecidableEq, Repr

/-- The block transaction in progress (R205, R214). -/
structure Tx where
  /-- The events not yet applied, in the driver's order (R208). -/
  events : List Word
  /-- `L`. -/
  len : Nat
  /-- `sample_rate`, in Hz. -/
  rate : BitVec 32
  /-- `chout`: a render buffer of `L` samples for each channel active at the start of the render phase, in ascending channel order (R75, R209); none before it. -/
  chout : List (Nat × List F32)
  stage : Stage
  deriving DecidableEq, Repr

/-- One `process_block` call of the driver (R205): the buffer it hands over has exactly `L` samples (R239 d), whatever they hold. -/
structure BlockIn where
  events : List Word
  buffer : List F32
  rate : BitVec 32
  connected : Bool
  deriving DecidableEq, Repr

/-- What a transaction returns (R205, R213). -/
inductive BlockResult where
  | cont
  | stop
  deriving DecidableEq, Repr

/-- What a controller interaction hands back (R232). -/
inductive Reply where
  /-- A push was accepted (R235). -/
  | ok
  /-- A push was rejected (R235). -/
  | full
  /-- A popped event word (R237). -/
  | event (w : Word)
  /-- A pop found MIRQ empty (R237). -/
  | empty
  /-- The STATUS value read (R238). -/
  | status (w : Word)
  deriving DecidableEq, Repr

/-- Whose step is next (R232, R236, log entry 3). -/
inductive Turn where
  /-- The ASP takes a step. -/
  | asp
  /-- The controller pushes a command message. -/
  | push (msg : List Word)
  /-- The controller pops the MIDI mirror. -/
  | popMirror
  /-- The controller reads STATUS. -/
  | readStatus
  /-- The controller writes STATUS. -/
  | writeStatus (w : Word)
  /-- The platform applies power-on reset. -/
  | powerOn
  deriving DecidableEq, Repr

/-- The machine (R25) with the host's side of its interfaces (R232). -/
structure State where
  /-- The parameters of R9, fixed for the model's lifetime (R48, log entry 1). -/
  params : Params
  /-- `E.ch[0..NCH-1]`: `none` is Empty (R25). -/
  ch : List (Option Stack)
  /-- `E.pitch` (R25). -/
  pitch : F32
  /-- `E.held`, the held-note BitSet (R27). -/
  held : BitVec 256
  /-- `E.held_count`, unsigned, at most `2^HELD_W - 1` (R50). -/
  heldCount : Nat
  /-- `STATUS` (R52). -/
  status : Word
  /-- `CMDQ`, head first (R55). -/
  cmdq : List (List Word)
  /-- `MIRQ`, head first (R56). -/
  mirq : List Word
  /-- The block transaction in progress; `none` between transactions (R44, R244). -/
  tx : Option Tx
  /-- The driver's output buffer (R72). -/
  outBuf : List F32
  /-- What the last transaction returned; `none` while one runs and before the first. -/
  result : Option BlockResult
  /-- What the last controller interaction handed back. -/
  reply : Option Reply
  /-- The driver's pending `process_block` calls (R205). -/
  blocks : List BlockIn
  /-- Whose steps come next; when none is listed the ASP steps. -/
  turns : List Turn
  /-- The model's own counter: how many NaN draws have been set aside (R15, log entry 7). -/
  draws : Nat
  deriving DecidableEq, Repr

/-- The state after power-on reset (R57, R245), under the default parameters (R9). -/
def State.reset : State where
  params := Params.default
  ch := List.replicate 16 none
  pitch := 0#32
  held := 0#256
  heldCount := 0
  status := 0#32
  cmdq := []
  mirq := []
  tx := none
  outBuf := []
  result := none
  reply := none
  blocks := []
  turns := []
  draws := 0

/-- The ASP has no trap and no fault (R221): nothing raises one, so the type has no constructor. -/
inductive Fault where
  deriving DecidableEq, Repr

/-- Why a step has no meaning. -/
inductive Refusal where
  /-- An instruction the model gives no meaning yet, by its mnemonic: raised by no arm now. Safe. -/
  | notModelled (mnemonic : String)
  /-- The configuration breaks a constraint of R10 (I22: "refuse"): raised by `step`. Safe. -/
  | badParameters
  /-- The driver passed a block with `L > L_MAX` (R205, I21: "A block with `L > L_MAX` is refused"): raised by `beginBlock`. Safe. -/
  | blockTooLong
  /-- A node descriptor that is not the node at the render position (R86: descriptors are never delivered alone): raised by the node meanings, never by `step`. Safe (log entry 17). -/
  | notAtNode
  deriving DecidableEq, Repr

end Sys2Proof.Machine
end

