-- ==== Sys2Proof/Machine/Ops.lean ====
section
/-! DEFINITION. The named operations over the storage spaces of R60: channels, register files, the held-note BitSet and counter, the MIDI mirror, and the render position. -/

namespace Sys2Proof.Machine

/-! Channels and register files. -/

/-- The Stack of channel `c`, if the slot exists and is active (R22, R25). -/
def State.stack (s : State) (c : Nat) : Option Stack := (s.ch[c]?).join

/-- `N` samples of `+0.0`. -/
def zeroSamples : Samples := Vector.replicate 256 f0

/-- `zero_stackdata()` (R190): every register of both files at `+0.0`. -/
def zeroStackData (p : Params) : StackData where
  areg := List.replicate p.na zeroSamples
  creg := List.replicate p.nc f0

/-- `MemRead(A:k, N)` (R17, R66). -/
def StackData.readAudio (d : StackData) (k : Nat) : Samples := (d.areg[k]?).getD zeroSamples

/-- `MemRead(C:k, 1)` (R17, R66). -/
def StackData.readControl (d : StackData) (k : Nat) : F32 := (d.creg[k]?).getD f0

/-- `MemWrite(A:k, N, v)` (R17, R67): the whole register, and nothing of the control file (R31). -/
def StackData.writeAudio (d : StackData) (k : Nat) (v : Samples) : StackData := { d with areg := d.areg.set k v }

/-- `MemWrite(C:k, 1, v)` (R17, R67): one control register, and nothing of the audio file (R31). -/
def StackData.writeControl (d : StackData) (k : Nat) (v : F32) : StackData := { d with creg := d.creg.set k v }

/-- The form of a register file: `NA` audio and `NC` control registers (R30). -/
def StackData.wf (p : Params) (d : StackData) : Bool :=
  decide (d.areg.length = p.na) && decide (d.creg.length = p.nc)

/-- Sample `j` of `areg[r]` of channel `c`, as a reader of the whole machine sees it; `none` where there is no such register. -/
def State.areg (s : State) (c r j : Nat) : Option F32 :=
  (s.stack c).bind fun S => (S.data.areg[r]?).bind fun v => v[j]?

/-- `creg[r]` of channel `c`. -/
def State.creg (s : State) (c r : Nat) : Option F32 := (s.stack c).bind fun S => S.data.creg[r]?

/-- The channels that are active (R22), in ascending order. -/
def State.activeChannels (s : State) : List Nat := (List.range s.ch.length).filter fun c => (s.stack c).isSome

/-- The node list of channel `c`. -/
def State.nodes (s : State) (c : Nat) : Option (List Node) := (s.stack c).map Stack.nodes

/-- Write one channel slot (R190, R194). A slot outside the array is no slot. -/
def setSlot (s : State) (c : Nat) (slot : Option Stack) : State := { s with ch := s.ch.set c slot }

/-- Apply a change to every active channel, in ascending order (R176, R195); an empty slot is not written. -/
def mapActive (f : Stack → Stack) (s : State) : State := { s with ch := s.ch.map (Option.map f) }

/-- Apply a change to one channel if it is active. -/
def modifyChannel (c : Nat) (f : Stack → Stack) (s : State) : State := { s with ch := s.ch.modify c (Option.map f) }

/-! The held-note BitSet (R160 to R165); an index is 8 bits wide, so none is out of range. -/

/-- `set(i)` (R160). -/
def bitSet (held : BitVec 256) (i : BitVec 8) : BitVec 256 := held ||| (1#256 <<< i.toNat)

/-- `clear(i)` (R161). -/
def bitClear (held : BitVec 256) (i : BitVec 8) : BitVec 256 := held &&& ~~~(1#256 <<< i.toNat)

/-- `clear_all()` (R162). -/
def bitClearAll : BitVec 256 := 0#256

/-- `contains(i)` (R163). -/
def bitContains (held : BitVec 256) (i : BitVec 8) : Bool := held.getLsbD i.toNat

/-- The held-set readout (R164): the members in ascending order. -/
def bitIter (held : BitVec 256) : List Nat := (List.range 256).filter fun i => held.getLsbD i

/-! The held-note counter and the pitch. -/

/-- `sat_inc` (R168). -/
def satInc (p : Params) (x : Nat) : Nat := min (x + 1) (2 ^ p.heldW - 1)

/-- `sat_dec` (R168). -/
def satDec (x : Nat) : Nat := x - 1

/-- `NOTE_FREQ[n]` (R167). -/
def noteFreq (p : Params) (note : BitVec 7) : F32 := (p.noteFreq[note.toNat]?).getD f0

/-- The derived gate (R177): from the counter, not from the set. -/
def gateValue (heldCount : Nat) : F32 := if 0 < heldCount then f1 else f0

/-- `post_event_write()` on one StackData (R176): the gate, then the pitch. -/
def writeGatePitch (p : Params) (gate pitch : F32) (d : StackData) : StackData :=
  (d.writeControl p.gateCreg gate).writeControl p.pitchCreg pitch

/-- `post_event_write()` (R176). -/
def postEventWrite (s : State) : State :=
  mapActive (fun S => { S with data := writeGatePitch s.params (gateValue s.heldCount) s.pitch S.data }) s

/-- `TIME_REG <- +0.0` in one StackData (R178): one control register, or all N samples of an audio register. -/
def clearTime (p : Params) (d : StackData) : StackData :=
  match p.timeReg with
  | .control k => d.writeControl k f0
  | .audio k => d.writeAudio k zeroSamples

/-- `retrigger(ch)` (R178) on the targets of R179. -/
def retrigger (chan : Nat) (s : State) : State :=
  match s.params.retrigScope with
  | .messageChannel => modifyChannel chan (fun S => { S with data := clearTime s.params S.data }) s
  | .allActive => mapActive (fun S => { S with data := clearTime s.params S.data }) s

/-- `mirror_push(ev)` (R181): a full queue drops the newest push. -/
def mirrorPush (ev : Word) (s : State) : State :=
  if s.mirq.length < s.params.mirrorCap then { s with mirq := s.mirq ++ [ev] } else s

/-! The transaction and the render position. -/

/-- Go on to another stage of the transaction in progress. -/
def setStage (stage : Stage) (s : State) : State := { s with tx := s.tx.map fun t => { t with stage := stage } }

/-- The node at the render position, with what a node call sees (R44, R115). -/
structure NodeCtx where
  tx : Tx
  pos : RenderPos
  stack : Stack
  node : Node
  deriving DecidableEq, Repr

/-- The node at the render position; `none` when no channel is being rendered there or every node of the chunk has run. -/
def State.nodeAt (s : State) : Option NodeCtx :=
  match s.tx with
  | none => none
  | some tx =>
    match tx.stage with
    | .render pos =>
      match s.stack pos.c with
      | none => none
      | some S => (S.nodes[pos.k]?).map fun nd => ⟨tx, pos, S, nd⟩
    | _ => none

/-- The end of a node call (R115, R45): the node's new locals and scalars, the channel's register file, the draws it set aside, and the render position at the next node. -/
def commitNode (s : State) (tx : Tx) (pos : RenderPos) (S : Stack) (node : Node) (data : StackData) (used : Nat) : State :=
  { s with
    ch := s.ch.set pos.c (some { nodes := S.nodes.set pos.k node, data := data })
    tx := some { tx with stage := .render { pos with k := pos.k + 1 } }
    draws := s.draws + used }

end Sys2Proof.Machine
end

