-- ==== Sys2Proof/Machine/Flags.lean ====
section
/-! DEFINITION. STATUS, the ASP's only status register (R47, R52), and `raise StatusEvent`, its only form of raise (R18): the ASP has no condition codes (R46), takes no exception and returns from none (R221, R227, R228). -/

namespace Sys2Proof.Machine

/-- The two status events; each one's code is its bit number (R222). -/
inductive StatusEvent where
  | badcmd
  | unimpl
  deriving DecidableEq, Repr

/-- The STATUS bit of an event (R52). -/
def statusBit : StatusEvent → Word
  | .badcmd => 0x00000001#32
  | .unimpl => 0x00000002#32

/-- `raise StatusEvent(name)` (R18): sets the sticky bit; the command being applied is discarded by its caller, and no control is transferred. -/
def raiseStatus (e : StatusEvent) (s : State) : State := { s with status := s.status ||| statusBit e }

/-- The value a controller read of STATUS returns: bits 31:2 read 0 (R52, R238). -/
def readStatus (s : State) : Word := s.status &&& 0x00000003#32

/-- A controller write of STATUS (R238): writing 1 to bit 0 or 1 clears it; `w[31:2]` is ignored. -/
def writeStatus (w : Word) (s : State) : State := { s with status := s.status &&& ~~~(w &&& 0x00000003#32) }

end Sys2Proof.Machine
end

