-- ==== Sys2Proof/Machine/Operands.lean ====
section
/-! DEFINITION. Ports, the ASP's operands: installing them from their descriptors (R38, R96), the uniform index (R64, R65), and the register-file multiplexer (R66, R67). -/

namespace Sys2Proof.Machine

/-- The descriptor a port was installed from. -/
def Port.spec : Port → PortSpec
  | .audio k _ => .audio k
  | .control k _ => .control k
  | .const init _ => .const init
  | .freeAudio _ => .freeAudio

/-- A port at install (R38): Audio all `+0.0`, bound Control `+0.0`, unbound Control its CONST. -/
def installPort : PortSpec → Port
  | .audio k => .audio k zeroSamples
  | .control k => .control k f0
  | .const v => .const v v
  | .freeAudio => .freeAudio zeroSamples

/-- A node at install (R96): its ports, and its scalars at `+0.0` (R42). -/
def installNode : NodeDesc → Node
  | .abs i o => .abs (installPort i) (installPort o)
  | .add a b o => .add (installPort a) (installPort b) (installPort o)
  | .adsr g a d s r t o =>
    .adsr (installPort g) (installPort a) (installPort d) (installPort s) (installPort r) (installPort t) (installPort o) f0 f0
  | .mul a b o => .mul (installPort a) (installPort b) (installPort o)
  | .osc f w q o => .osc (installPort f) (installPort w) (installPort q) (installPort o) f0

/-- The descriptor a node was installed from (R80: no kernel writes it). -/
def Node.desc : Node → NodeDesc
  | .abs i o => .abs i.spec o.spec
  | .add a b o => .add a.spec b.spec o.spec
  | .adsr g a d s r t o _ _ => .adsr g.spec a.spec d.spec s.spec r.spec t.spec o.spec
  | .mul a b o => .mul a.spec b.spec o.spec
  | .osc f w q o _ => .osc f.spec w.spec q.spec o.spec

/-- `P.kind = Audio` (R35). -/
def Port.isAudio : Port → Bool
  | .audio _ _ | .freeAudio _ => true
  | .control _ _ | .const _ _ => false

/-- The uniform read `P[i]` (R64). -/
def Port.get (P : Port) (i : Nat) : F32 :=
  match P with
  | .audio _ v => (v[i]?).getD f0
  | .freeAudio v => (v[i]?).getD f0
  | .control _ x => x
  | .const _ x => x

/-- The uniform write `P[i] <- v` (R65). -/
def Port.put (P : Port) (i : Nat) (v : F32) : Port :=
  match P with
  | .audio k w => .audio k (w.setIfInBounds i v)
  | .freeAudio w => .freeAudio (w.setIfInBounds i v)
  | .control k _ => .control k v
  | .const init _ => .const init v

/-- `read(P, data)` (R66): a bound port's whole local is overwritten from its register; an unbound port is left alone. -/
def Port.read (P : Port) (data : StackData) : Port :=
  match P with
  | .audio k _ => .audio k (data.readAudio k.toNat)
  | .control k _ => .control k (data.readControl k.toNat)
  | .const init x => .const init x
  | .freeAudio v => .freeAudio v

/-- `write(P, data)` (R67): a bound port's whole local is committed to its register; an unbound port commits nothing. -/
def Port.write (P : Port) (data : StackData) : StackData :=
  match P with
  | .audio k v => data.writeAudio k.toNat v
  | .control k x => data.writeControl k.toNat x
  | .const _ _ => data
  | .freeAudio _ => data

/-- The node at the render position, when its descriptor is the one given (R86: a descriptor is executed only where it is installed). -/
def State.nodeFor (s : State) (d : NodeDesc) : Option NodeCtx :=
  match s.nodeAt with
  | some x => if x.node.desc = d then some x else none
  | none => none

end Sys2Proof.Machine
end

