-- ==== Sys2Proof/Machine/Commands.lean ====
section
/-! DEFINITION. The structural commands (R185 to R201), as they are applied once a message is decoded. A command whose channel index is out of range is ignored (R187). -/

namespace Sys2Proof.Machine

/-- `set_channel(k, nodes)` (R190): a fresh Stack, whatever the slot held (R191). -/
def setChannel (k : Nat) (nodes : List Node) (s : State) : State :=
  setSlot s k (some { nodes := nodes, data := zeroStackData s.params })

/-- `replace_nodes(k, nodes)` (R192): the register file is kept; an empty slot stays empty (R193). -/
def replaceNodes (k : Nat) (nodes : List Node) (s : State) : State :=
  modifyChannel k (fun S => { S with nodes := nodes }) s

/-- `remove_channel(k)` (R194). -/
def removeChannel (k : Nat) (s : State) : State := setSlot s k none

/-- `reset_data()` (R195): registers only; node scalars and port locals stay (R196). -/
def resetData (s : State) : State := mapActive (fun S => { S with data := zeroStackData s.params }) s

/-- **setch** (R190, R187). -/
def execSetch (chan : BitVec 8) (nodes : List NodeDesc) (s : State) : Host.Outcome State Fault Refusal :=
  .next (if chan.toNat < s.params.nch then setChannel chan.toNat (nodes.map installNode) s else s)

/-- **replace** (R192, R187). -/
def execReplace (chan : BitVec 8) (nodes : List NodeDesc) (s : State) : Host.Outcome State Fault Refusal :=
  .next (if chan.toNat < s.params.nch then replaceNodes chan.toNat (nodes.map installNode) s else s)

/-- **rmch** (R194, R187). -/
def execRmch (chan : BitVec 8) (s : State) : Host.Outcome State Fault Refusal :=
  .next (if chan.toNat < s.params.nch then removeChannel chan.toNat s else s)

/-- **resetdata** (R195). -/
def execResetdata (s : State) : Host.Outcome State Fault Refusal := .next (resetData s)

/-- **addnode** (R197): the whole message is discarded and UNIMPL is set. -/
def execAddnode (_chan _nnodes : BitVec 8) (_payload : List Word) (s : State) : Host.Outcome State Fault Refusal :=
  .next (raiseStatus .unimpl s)

end Sys2Proof.Machine
end

