-- ==== Sys2Proof/WellFormed.lean ====
section
/-! DEFINITION. When an instruction is well-formed under a configuration: register indices in range (R93, R95), node counts (R105) and the words that are classed Other (R99). The checks on reserved bits and lengths have no ill-formed term: the syntax holds no reserved bit, and a list of descriptors carries its own length. -/

namespace Sys2Proof

/-- `reg_in_range` (R95): a bound port names a register that exists. -/
def PortSpec.wf (p : Params) : PortSpec → Bool
  | .audio k => decide (k.toNat < p.na)
  | .control k => decide (k.toNat < p.nc)
  | .const _ => true
  | .freeAudio => true

/-- Every port of a descriptor passes `reg_in_range` (R95). -/
def NodeDesc.wf (p : Params) (d : NodeDesc) : Bool := d.ports.all (PortSpec.wf p)

/-- `node_count` and `descriptors_ok` (R105): at most `NODE_CAP` nodes, as many as the 8-bit NNODES field can say (R102), each well-formed. -/
def nodesWf (p : Params) (nodes : List NodeDesc) : Bool :=
  decide (nodes.length ≤ p.nodeCap) && decide (nodes.length < 256) && nodes.all (NodeDesc.wf p)

/-- An event word is classed Other: TYPE 3 to 15, or a reserved bit (15 or 31:23) set (R98, R99). -/
def otherWord (w : Word) : Bool :=
  decide (3 ≤ (w.extractLsb' 0 4).toNat) || w.getLsbD 15 || decide (w.extractLsb' 23 9 ≠ 0#9)

/-- Well-formedness of an instruction (R95, R99, R105). -/
def Instr.wf (p : Params) : Instr → Bool
  | .abs i o => (NodeDesc.abs i o).wf p
  | .add a b o => (NodeDesc.add a b o).wf p
  | .adsr g a d s r t o => (NodeDesc.adsr g a d s r t o).wf p
  | .mul a b o => (NodeDesc.mul a b o).wf p
  | .osc f w pw o => (NodeDesc.osc f w pw o).wf p
  | .noteon _ _ _ => true
  | .noteoff _ _ _ => true
  | .reset _ _ _ => true
  | .other w => otherWord w
  | .setch _ nodes => nodesWf p nodes
  | .replace _ nodes => nodesWf p nodes
  | .rmch _ => true
  | .resetdata => true
  | .addnode _ _ _ => true

end Sys2Proof
end

