-- ==== Sys2Proof/Decode.lean ====
section
/-! DEFINITION. The decoders of the three inputs (R85 to R109), total on any words and rejecting by name, and after them the encoder, written from the same tables. -/

namespace Sys2Proof

/-- The named checks of R95 and R105 (and of the formats' lengths) that an input can fail. -/
inductive DecodeError where
  /-- `hdr_reserved`: a reserved bit of NODE_HDR or CMD_HDR is set. -/
  | hdrReserved
  /-- `kind_known`: KIND is 5 to 15. -/
  | kindKnown
  /-- `port_reserved`: a reserved bit of a PORTW is set. -/
  | portReserved
  /-- `unbound_reg_zero`: an unbound PORTW has `REG ≠ 0`. -/
  | unboundRegZero
  /-- `reg_in_range`: a bound PORTW names no register of its file. -/
  | regInRange
  /-- `length`: words are missing at the end. -/
  | lengthShort
  /-- `op_known`: OP is 5 to 15. -/
  | opKnown
  /-- `node_count`: more than `NODE_CAP` nodes. -/
  | nodeCount
  /-- `payload_exact`: the payload does not end where the descriptors end. -/
  | payloadExact
  /-- A field requirement of R103: NNODES of rmch, CHAN or NNODES of resetdata. -/
  | fieldZero
  /-- A message of no words: R104 has `W ≥ 1` (log entry 9). -/
  | emptyMessage
  /-- An event is exactly one word (R97). -/
  | eventLength
  /-- Bytes that are no whole number of words (R73, R85). -/
  | partialWord
  deriving DecidableEq, Repr

/-- The field `w[lo+width-1 : lo]` of a word (R16). -/
def field (w : Word) (lo width : Nat) : BitVec width := w.extractLsb' lo width

/-- One PORTW and, for an unbound Control port, its CONST (R92 to R94), with the checks of R95. -/
def parsePort (p : Params) : List Word → Except DecodeError (PortSpec × List Word)
  | [] => .error .lengthShort
  | w :: rest =>
    if field w 2 6 ≠ 0#6 ∨ field w 16 16 ≠ 0#16 then .error .portReserved
    else
      match w.getLsbD 1, w.getLsbD 0 with
      | true, false =>
        if (field w 8 8).toNat < p.na then .ok (.audio (field w 8 8), rest) else .error .regInRange
      | true, true =>
        if (field w 8 8).toNat < p.nc then .ok (.control (field w 8 8), rest) else .error .regInRange
      | false, false =>
        if field w 8 8 = 0#8 then .ok (.freeAudio, rest) else .error .unboundRegZero
      | false, true =>
        if field w 8 8 ≠ 0#8 then .error .unboundRegZero
        else
          match rest with
          | [] => .error .lengthShort
          | c :: rest' => .ok (.const c, rest')

/-- The ports of one descriptor, in order (R87, R108). -/
def parsePorts (p : Params) : Nat → List Word → Except DecodeError (List PortSpec × List Word)
  | 0, ws => .ok ([], ws)
  | n + 1, ws =>
    match parsePort p ws with
    | .error e => .error e
    | .ok (q, ws') =>
      match parsePorts p n ws' with
      | .error e => .error e
      | .ok (qs, ws'') => .ok (q :: qs, ws'')

/-- The number of ports of each KIND (R89); `none` for the reserved kinds 5 to 15. -/
def kindPorts : Nat → Option Nat
  | 0 => some 2
  | 1 => some 3
  | 2 => some 7
  | 3 => some 3
  | 4 => some 4
  | _ => none

/-- The descriptor of a KIND with its ports in the order of R41 (R89, R91). -/
def buildNode : Nat → List PortSpec → Option NodeDesc
  | 0, [i, o] => some (.abs i o)
  | 1, [a, b, o] => some (.add a b o)
  | 2, [g, a, d, s, r, t, o] => some (.adsr g a d s r t o)
  | 3, [a, b, o] => some (.mul a b o)
  | 4, [f, w, q, o] => some (.osc f w q o)
  | _, _ => none

/-- One descriptor at the head of a word list, and the words after it (R108, parse_node). -/
def parseNode (p : Params) : List Word → Except DecodeError (NodeDesc × List Word)
  | [] => .error .lengthShort
  | h :: rest =>
    if field h 4 28 ≠ 0#28 then .error .hdrReserved
    else
      match kindPorts (field h 0 4).toNat with
      | none => .error .kindKnown
      | some n =>
        match parsePorts p n rest with
        | .error e => .error e
        | .ok (ps, rest') =>
          match buildNode (field h 0 4).toNat ps with
          | none => .error .kindKnown
          | some d => .ok (d, rest')

/-- A number of descriptors back to back (R104, R108). -/
def parseNodes (p : Params) : Nat → List Word → Except DecodeError (List NodeDesc × List Word)
  | 0, ws => .ok ([], ws)
  | n + 1, ws =>
    match parseNode p ws with
    | .error e => .error e
    | .ok (d, ws') =>
      match parseNodes p n ws' with
      | .error e => .error e
      | .ok (ds, ws'') => .ok (d :: ds, ws'')

/-- The payload of setch and replace: NNODES descriptors and nothing else (R105). -/
def decodePayload (p : Params) (nnodes : BitVec 8) (payload : List Word) : Except DecodeError (List NodeDesc) :=
  if p.nodeCap < nnodes.toNat then .error .nodeCount
  else
    match parseNodes p nnodes.toNat payload with
    | .error e => .error e
    | .ok (ds, []) => .ok ds
    | .ok (_, _ :: _) => .error .payloadExact

/-- A command message (R102 to R105, in the order of R185). -/
def decodeCommand (p : Params) : List Word → Except DecodeError Instr
  | [] => .error .emptyMessage
  | h :: payload =>
    if field h 4 4 ≠ 0#4 ∨ field h 24 8 ≠ 0#8 then .error .hdrReserved
    else
      match (field h 0 4).toNat with
      | 0 =>
        match decodePayload p (field h 16 8) payload with
        | .error e => .error e
        | .ok ds => .ok (.setch (field h 8 8) ds)
      | 1 =>
        match decodePayload p (field h 16 8) payload with
        | .error e => .error e
        | .ok ds => .ok (.replace (field h 8 8) ds)
      | 2 =>
        if field h 16 8 ≠ 0#8 then .error .fieldZero
        else if payload ≠ [] then .error .payloadExact
        else .ok (.rmch (field h 8 8))
      | 3 =>
        if field h 8 8 ≠ 0#8 ∨ field h 16 8 ≠ 0#8 then .error .fieldZero
        else if payload ≠ [] then .error .payloadExact
        else .ok .resetdata
      | 4 => .ok (.addnode (field h 8 8) (field h 16 8) payload)
      | _ => .error .opKnown

/-- An event word (R97 to R99): every word has a class. -/
def decodeEvent (w : Word) : Instr :=
  if field w 15 1 ≠ 0#1 ∨ field w 23 9 ≠ 0#9 then .other w
  else
    match (field w 0 4).toNat with
    | 0 => .noteon (field w 4 4) (field w 8 7) (field w 16 7)
    | 1 => .noteoff (field w 4 4) (field w 8 7) (field w 16 7)
    | 2 => .reset (field w 4 4) (field w 8 7) (field w 16 7)
    | _ => .other w

/-- A descriptor that fills its words exactly (R95). -/
def decodeNode (p : Params) (ws : List Word) : Except DecodeError Instr :=
  match parseNode p ws with
  | .error e => .error e
  | .ok (d, []) => .ok d.toInstr
  | .ok (_, _ :: _) => .error .payloadExact

/-- The decoder of each input (R86). -/
def decode (p : Params) : Family → List Word → Except DecodeError Instr
  | .node, ws => decodeNode p ws
  | .midi, [w] => .ok (decodeEvent w)
  | .midi, _ => .error .eventLength
  | .command, ws => decodeCommand p ws

/-- A word from its four bytes, bits 7:0 first (R73). -/
def wordOfBytes (b0 b1 b2 b3 : Byte) : Word := b3 ++ b2 ++ b1 ++ b0

/-- The four bytes of a word, bits 7:0 first (R73). -/
def bytesOfWord (w : Word) : List Byte := [field w 0 8, field w 8 8, field w 16 8, field w 24 8]

/-- The words that a list of bytes carries (R73, R85). -/
def wordsOfBytes : List Byte → Option (List Word)
  | [] => some []
  | b0 :: b1 :: b2 :: b3 :: rest => (wordsOfBytes rest).map (wordOfBytes b0 b1 b2 b3 :: ·)
  | _ => none

/-- The decoder of each input on bytes, as a host carries them (R73). -/
def decodeBytes (p : Params) (fam : Family) (bs : List Byte) : Except DecodeError Instr :=
  match wordsOfBytes bs with
  | none => .error .partialWord
  | some ws => decode p fam ws

/-! The encoder, from the same tables. -/

/-- PORTW and CONST of an operand (R92, R94, R110). -/
def encodePort : PortSpec → List Word
  | .audio k => [0#16 ++ k ++ 0x02#8]
  | .control k => [0#16 ++ k ++ 0x03#8]
  | .const v => [0x00000001#32, v]
  | .freeAudio => [0x00000000#32]

/-- KIND of a descriptor (R89). -/
def NodeDesc.kind : NodeDesc → BitVec 4
  | .abs _ _ => 0#4
  | .add _ _ _ => 1#4
  | .adsr _ _ _ _ _ _ _ => 2#4
  | .mul _ _ _ => 3#4
  | .osc _ _ _ _ => 4#4

/-- The words of a descriptor (R87, R88). -/
def encodeNode (d : NodeDesc) : List Word := (0#28 ++ d.kind) :: d.ports.flatMap encodePort

/-- An event word with clean reserved bits (R97). -/
def eventWord (type chan : BitVec 4) (note vel : BitVec 7) : Word :=
  0#9 ++ vel ++ 0#1 ++ note ++ chan ++ type

/-- A command header with clean reserved bits (R102). -/
def commandHeader (op : BitVec 4) (chan nnodes : BitVec 8) : Word :=
  0#8 ++ nnodes ++ chan ++ 0#4 ++ op

/-- The words of an instruction (R87, R97, R104). -/
def encode : Instr → List Word
  | .abs i o => encodeNode (.abs i o)
  | .add a b o => encodeNode (.add a b o)
  | .adsr g a d s r t o => encodeNode (.adsr g a d s r t o)
  | .mul a b o => encodeNode (.mul a b o)
  | .osc f w q o => encodeNode (.osc f w q o)
  | .noteon c n v => [eventWord 0#4 c n v]
  | .noteoff c n v => [eventWord 1#4 c n v]
  | .reset c n v => [eventWord 2#4 c n v]
  | .other w => [w]
  | .setch c ds => commandHeader 0#4 c (BitVec.ofNat 8 ds.length) :: ds.flatMap encodeNode
  | .replace c ds => commandHeader 1#4 c (BitVec.ofNat 8 ds.length) :: ds.flatMap encodeNode
  | .rmch c => [commandHeader 2#4 c 0#8]
  | .resetdata => [commandHeader 3#4 0#8 0#8]
  | .addnode c n payload => commandHeader 4#4 c n :: payload

/-! A word of the opcode table, whose input the table does not say (log entry 5). -/

/-- The words of a table word, first word first, with zero operand words after them. -/
def tableWords (nbits w : Nat) : List Word :=
  (List.range (max 1 ((nbits + 31) / 32))).map (fun i => BitVec.ofNat 32 ((w % 2 ^ nbits) / 2 ^ (32 * i)))
    ++ List.replicate 256 0#32

/-- How many of the words a command message takes: the header and, for setch and replace, its descriptors (R104). -/
def tableMessage (p : Params) (ws : List Word) : List Word :=
  match ws with
  | [] => []
  | h :: rest =>
    if (field h 0 4).toNat ≤ 1 then
      match parseNodes p (field h 16 8).toNat rest with
      | .ok (_, rest') => ws.take (ws.length - rest'.length)
      | .error _ => [h]
    else [h]

/-- A table word as an input: its family, its words and its instruction. The rows are tried in the table's order with the catch-all `other` last, as the table says. -/
def readTable (p : Params) (nbits w : Nat) : Family × List Word × Instr :=
  let ws := tableWords nbits w
  let ev := ws.headD 0#32
  let msg := tableMessage p ws
  match parseNode p ws with
  | .ok (d, rest) => (.node, ws.take (ws.length - rest.length), d.toInstr)
  | .error _ =>
    if decodeEvent ev ≠ .other ev then (.midi, [ev], decodeEvent ev)
    else
      match decodeCommand p msg with
      | .ok i => (.command, msg, i)
      | .error _ => (.midi, [ev], .other ev)

/-- The descriptor of a node instruction. -/
def instrNode : Instr → Option NodeDesc
  | .abs i o => some (.abs i o)
  | .add a b o => some (.add a b o)
  | .adsr g a d s r t o => some (.adsr g a d s r t o)
  | .mul a b o => some (.mul a b o)
  | .osc f w q o => some (.osc f w q o)
  | .noteon _ _ _ | .noteoff _ _ _ | .reset _ _ _ | .other _ => none
  | .setch _ _ | .replace _ _ | .rmch _ | .resetdata | .addnode _ _ _ => none

/-- The instruction the decoder reads from a word numbered as the opcode table numbers it, under the default parameters. -/
def decodeTableWord (nbits w : Nat) : Option Instr := some (readTable Params.default nbits w).2.2

end Sys2Proof
end

