-- ==== Sys2Proof/Machine/MidiEvents.lean ====
section
/-! DEFINITION. The MIDI events (R166 to R182). -/

namespace Sys2Proof.Machine

/-- A 7-bit note number as an index of the 256-bit set (R27, R100). -/
def noteIndex (note : BitVec 7) : BitVec 8 := note.setWidth 8

/-- `midi_noteon(ev)` (R170). -/
def midiNoteOn (ev : Word) (chan : BitVec 4) (note : BitVec 7) (s : State) : State :=
  let s := { s with held := bitSet s.held (noteIndex note) }
  let s := { s with heldCount := satInc s.params s.heldCount }
  let s := { s with pitch := noteFreq s.params note }
  postEventWrite (retrigger chan.toNat (mirrorPush ev s))

/-- `midi_noteoff(ev)` (R172). -/
def midiNoteOff (note : BitVec 7) (s : State) : State :=
  let s := { s with heldCount := satDec s.heldCount }
  let s := { s with held := bitClear s.held (noteIndex note) }
  postEventWrite s

/-- `midi_reset()` (R174). -/
def midiReset (s : State) : State :=
  postEventWrite { s with heldCount := 0, held := bitClearAll }

/-- `midi_other()` (R175). -/
def midiOther (s : State) : State := if s.params.otherWrites then postEventWrite s else s

/-- **noteon** (R170): a velocity of 0 is handled as a NoteOff when `VEL0_NOTEOFF` says so (R169, R182). The mirror carries the event word as received (R181). -/
def execNoteon (chan : BitVec 4) (note vel : BitVec 7) (s : State) : Host.Outcome State Fault Refusal :=
  .next (if s.params.vel0NoteOff && decide (vel = 0#7) then midiNoteOff note s
         else midiNoteOn (eventWord 0#4 chan note vel) chan note s)

/-- **noteoff** (R172): CHAN and VEL are not used. -/
def execNoteoff (_chan : BitVec 4) (note _vel : BitVec 7) (s : State) : Host.Outcome State Fault Refusal :=
  .next (midiNoteOff note s)

/-- **reset** (R174): CHAN, NOTE and VEL are ignored. -/
def execReset (_chan : BitVec 4) (_note _vel : BitVec 7) (s : State) : Host.Outcome State Fault Refusal :=
  .next (midiReset s)

/-- **other** (R175). -/
def execOther (_word : Word) (s : State) : Host.Outcome State Fault Refusal :=
  .next (midiOther s)

end Sys2Proof.Machine
end

