-- ==== Sys2Proof/Machine/NodeKernels.lean ====
section
/-! DEFINITION. The node kernels (R115 to R142): each meaning reads the node's inputs, runs its kernel over the chunk, and writes its outputs. A kernel takes `d`, the first NaN draw it may use (R15, log entry 7). -/

namespace Sys2Proof.Machine

/-- The kernel template (R117): the body at `i = 0, 1, ..., n-1`, in ascending order. -/
def sampleLoop {σ : Type} (body : Nat → σ → σ) : Nat → σ → σ
  | 0, st => st
  | n + 1, st => body n (sampleLoop body n st)

/-- Abs (R120). -/
def absKernel (n : Nat) (input output : Port) : Port :=
  sampleLoop (fun i o => o.put i (fabs (input.get i))) n output

/-- Add (R122); sample `i` has draw `d + i`. -/
def addKernel (n d : Nat) (input1 input2 output : Port) : Port :=
  sampleLoop (fun i o => o.put i (fadd (d + i) (input1.get i) (input2.get i))) n output

/-- Mul (R125); sample `i` has draw `d + i`. -/
def mulKernel (n d : Nat) (input1 input2 output : Port) : Port :=
  sampleLoop (fun i o => o.put i (fmul (d + i) (input1.get i) (input2.get i))) n output

/-- The oscillator's shapes (R127). -/
inductive Shape where
  | saw
  | pulse
  | silence
  deriving DecidableEq, Repr

/-- `clamp01(x)` (R127). -/
def clamp01 (x : F32) : F32 := if flt x f0 then f0 else if fgt x f1 then f1 else x

/-- `shape(x)` (R127). -/
def oscShape (d : Nat) (x : F32) : Shape :=
  let sel := ffloor d (clamp01 x)
  if feq sel f0 then .saw else if feq sel f1 then .pulse else .silence

/-- `OSC_WRAP(phase)` (R129). The floored modulo is `phase - floor(phase)`, and where that rounds up to 1.0 the largest value below it (C6, log entry 8). A NaN is drawn, whichever NaN a table lists (R15). -/
def oscWrap (p : Params) (d : Nat) (phase : F32) : F32 :=
  match p.oscWrap with
  | .fmod => ffmod d phase f1
  | .floored =>
    let v := fsub d phase (ffloor d phase)
    if flt v f1 || isNaN v then v else 0x3F7FFFFF#32
  | .table entries =>
    match entries.lookup phase with
    | some v => if isNaN v then nan d else v
    | none => ffmod d phase f1

/-- The output of one oscillator sample from the wrapped phase (R128). -/
def oscOutput (d : Nat) (phase waveform pulseWidth : F32) : F32 :=
  match oscShape d waveform with
  | .saw => fsub (d + 2) (fmul (d + 1) phase f2) f1
  | .pulse => if fgt phase pulseWidth then f1 else fm1
  | .silence => f0

/-- What the oscillator kernel writes: its output port and its scalar. -/
structure OscState where
  output : Port
  phase : F32
  deriving DecidableEq, Repr

/-- One sample of the oscillator (R128): wrap, output, advance without a wrap (R130). Draws `d` to `d + 5`. -/
def oscSample (p : Params) (sr : F32) (d : Nat) (frequency waveform pulseWidth : Port) (i : Nat) (st : OscState) : OscState :=
  let phase := oscWrap p d st.phase
  { output := st.output.put i (oscOutput (d + 1) phase (waveform.get i) (pulseWidth.get i))
    phase := fadd (d + 5) phase (fdiv (d + 4) (frequency.get i) sr) }

/-- Oscillator (R128). -/
def oscKernel (p : Params) (sr : F32) (n d : Nat) (frequency waveform pulseWidth : Port) (st : OscState) : OscState :=
  sampleLoop (fun i st => oscSample p sr (d + 6 * i) frequency waveform pulseWidth i st) n st

/-- What the Adsr kernel writes: its in-out port, its output port and its scalars. -/
structure AdsrState where
  time : Port
  output : Port
  voltage : F32
  previousGate : F32
  deriving DecidableEq, Repr

/-- The voltage with the gate high (R132, R134): attack, decay, or sustain as `ADSR_SUSTAIN` says (R133). Draws `d` to `d + 7`. With a NaN decay while `time < attack`, R134's pseudocode takes the attack segment and R137 the sustain segment: `nanDecay` says which; past the attack a NaN decay takes the sustain segment under both (log entry 25). -/
def adsrHigh (p : Params) (d : Nat) (time attack decay sustain voltage : F32) : F32 :=
  if flt time attack && !(isNaN decay && decide (p.nanDecay = .sustain)) then fdiv d time attack
  else if flt time (fadd (d + 1) attack decay) then
    fadd (d + 7)
      (fdiv (d + 6) (fmul (d + 5) (fsub (d + 3) (fadd (d + 2) decay attack) time) (fsub (d + 4) f1 sustain)) decay)
      sustain
  else
    match p.adsrSustain with
    | .explicit => sustain
    | .hold => voltage

/-- The voltage with the gate low (R134), with the release floor of R135. Draws `d` to `d + 2`. -/
def adsrLow (d : Nat) (sr sustain release voltage : F32) : F32 :=
  let v := fsub (d + 2) voltage (fdiv (d + 1) sustain (fmul d release sr))
  if flt v f0 || isNaN v then f0 else v

/-- The note-on edge (R134, R136): a high gate after a low one writes 0 to the time port. -/
def adsrRetrigger (gate previousGate : F32) (i : Nat) (time : Port) : Port :=
  if fne gate f0 && feq previousGate f0 then time.put i f0 else time

/-- One sample of the Adsr (R134). Draws `d` to `d + 12`. -/
def adsrSample (p : Params) (sr : F32) (d : Nat) (gate attack decay sustain release : Port) (i : Nat) (st : AdsrState) : AdsrState :=
  let time := adsrRetrigger (gate.get i) st.previousGate i st.time
  let voltage :=
    if fne (gate.get i) f0 then
      adsrHigh p d (time.get i) (attack.get i) (decay.get i) (sustain.get i) st.voltage
    else adsrLow (d + 8) sr (sustain.get i) (release.get i) st.voltage
  { output := st.output.put i voltage
    voltage := voltage
    previousGate := gate.get i
    time := time.put i (fadd (d + 12) (time.get i) (fdiv (d + 11) f1 sr)) }

/-- Adsr (R134). -/
def adsrKernel (p : Params) (sr : F32) (n d : Nat) (gate attack decay sustain release : Port) (st : AdsrState) : AdsrState :=
  sampleLoop (fun i st => adsrSample p sr (d + 13 * i) gate attack decay sustain release i st) n st

/-! The meanings: the node process protocol of R115 around each kernel. -/

/-- **abs** (R120). -/
def execAbs (input output : PortSpec) (s : State) : Host.Outcome State Fault Refusal :=
  match s.nodeFor (.abs input output) with
  | some ⟨tx, pos, S, .abs pi po⟩ =>
    let pi := pi.read S.data
    let po := absKernel pos.n pi po
    .next (commitNode s tx pos S (.abs pi po) (po.write S.data) 0)
  | _ => .refused .notAtNode

/-- **add** (R122). -/
def execAdd (input1 input2 output : PortSpec) (s : State) : Host.Outcome State Fault Refusal :=
  match s.nodeFor (.add input1 input2 output) with
  | some ⟨tx, pos, S, .add pa pb po⟩ =>
    let pa := pa.read S.data
    let pb := pb.read S.data
    let po := addKernel pos.n s.draws pa pb po
    .next (commitNode s tx pos S (.add pa pb po) (po.write S.data) pos.n)
  | _ => .refused .notAtNode

/-- **adsr** (R134): `time` is in both lists, and is written after `output` (R68). -/
def execAdsr (gate attack decay sustain release time output : PortSpec) (s : State) : Host.Outcome State Fault Refusal :=
  match s.nodeFor (.adsr gate attack decay sustain release time output) with
  | some ⟨tx, pos, S, .adsr pg pa pd ps pr pt po voltage previousGate⟩ =>
    let pg := pg.read S.data
    let pa := pa.read S.data
    let pd := pd.read S.data
    let ps := ps.read S.data
    let pr := pr.read S.data
    let pt := pt.read S.data
    let st := adsrKernel s.params (u32ToF32 tx.rate) pos.n s.draws pg pa pd ps pr ⟨pt, po, voltage, previousGate⟩
    let node := Node.adsr pg pa pd ps pr st.time st.output st.voltage st.previousGate
    .next (commitNode s tx pos S node (st.time.write (st.output.write S.data)) (13 * pos.n))
  | _ => .refused .notAtNode

/-- **mul** (R125). -/
def execMul (input1 input2 output : PortSpec) (s : State) : Host.Outcome State Fault Refusal :=
  match s.nodeFor (.mul input1 input2 output) with
  | some ⟨tx, pos, S, .mul pa pb po⟩ =>
    let pa := pa.read S.data
    let pb := pb.read S.data
    let po := mulKernel pos.n s.draws pa pb po
    .next (commitNode s tx pos S (.mul pa pb po) (po.write S.data) pos.n)
  | _ => .refused .notAtNode

/-- **osc** (R128). -/
def execOsc (frequency waveform pulseWidth output : PortSpec) (s : State) : Host.Outcome State Fault Refusal :=
  match s.nodeFor (.osc frequency waveform pulseWidth output) with
  | some ⟨tx, pos, S, .osc pf pw pq po phase⟩ =>
    let pf := pf.read S.data
    let pw := pw.read S.data
    let pq := pq.read S.data
    let st := oscKernel s.params (u32ToF32 tx.rate) pos.n s.draws pf pw pq ⟨po, phase⟩
    let node := Node.osc pf pw pq st.output st.phase
    .next (commitNode s tx pos S node (st.output.write S.data) (6 * pos.n))
  | _ => .refused .notAtNode

end Sys2Proof.Machine
end

