-- ==== Sys2Proof/Machine/Dispatch.lean ====
section
/-! DEFINITION. The meaning of each instruction: one arm per constructor. -/

namespace Sys2Proof.Machine

def exec (i : Instr) (s : State) : Host.Outcome State Fault Refusal :=
  match i with
  -- node kernels
  | .abs input output => Sys2Proof.Machine.execAbs input output s
  | .add input1 input2 output => Sys2Proof.Machine.execAdd input1 input2 output s
  | .adsr gate attack decay sustain release time output => Sys2Proof.Machine.execAdsr gate attack decay sustain release time output s
  | .mul input1 input2 output => Sys2Proof.Machine.execMul input1 input2 output s
  | .osc frequency waveform pulseWidth output => Sys2Proof.Machine.execOsc frequency waveform pulseWidth output s
  -- MIDI events
  | .noteon chan note vel => Sys2Proof.Machine.execNoteon chan note vel s
  | .noteoff chan note vel => Sys2Proof.Machine.execNoteoff chan note vel s
  | .reset chan note vel => Sys2Proof.Machine.execReset chan note vel s
  | .other word => Sys2Proof.Machine.execOther word s
  -- structural commands
  | .setch chan nodes => Sys2Proof.Machine.execSetch chan nodes s
  | .replace chan nodes => Sys2Proof.Machine.execReplace chan nodes s
  | .rmch chan => Sys2Proof.Machine.execRmch chan s
  | .resetdata => Sys2Proof.Machine.execResetdata s
  | .addnode chan nnodes payload => Sys2Proof.Machine.execAddnode chan nnodes payload s

end Sys2Proof.Machine
end

