-- ==== Sys2Proof/Machine/HostPort.lean ====
section
/-! DEFINITION. The interactions of the controller and the platform (R232): each is one atomic step between two ASP steps (R235 to R238, R245). -/

namespace Sys2Proof.Machine

/-- `CMDQ.push(msg)` (R235): a full queue rejects the newest push. -/
def cmdPush (msg : List Word) (s : State) : State :=
  if s.cmdq.length < s.params.cmdCap then { s with cmdq := s.cmdq ++ [msg], reply := some .ok }
  else { s with reply := some .full }

/-- `MIRQ.pop()` (R237). -/
def mirrorPop (s : State) : State :=
  match s.mirq with
  | [] => { s with reply := some .empty }
  | w :: rest => { s with mirq := rest, reply := some (.event w) }

/-- A STATUS read (R238): no side effect. -/
def statusRead (s : State) : State := { s with reply := some (.status (readStatus s)) }

/-- Power-on reset (R57, R245) under the machine's own parameters: the ASP's state is set, the host's own buffer, pending calls and turns stay (log entry 13). -/
def powerOn (s : State) : State where
  params := s.params
  ch := List.replicate s.params.nch none
  pitch := s.params.pitchInit
  held := 0#256
  heldCount := 0
  status := 0#32
  cmdq := []
  mirq := []
  tx := none
  outBuf := s.outBuf
  result := none
  reply := none
  blocks := s.blocks
  turns := s.turns
  draws := s.draws

end Sys2Proof.Machine
end

