-- ==== Sys2Proof/Machine/Mixer.lean ====
section
/-! DEFINITION. The output copy of a chunk (R150), the mixer (R210), the clamp (R211) and OutWrite (R72, R212). -/

namespace Sys2Proof.Machine

/-- Fresh render buffers of `len` samples for the channels `cs` (R75, R209), with free contents numbered from `d`. -/
def freshBuffers (d len : Nat) (cs : List Nat) : List (Nat × List F32) :=
  cs.zipIdx.map fun e => (e.1, (List.range len).map fun j => Config.freeSample (d + e.2 * len + j))

/-- `chout[b + j] <- xs[j]` for every sample of `xs` (R150). -/
def copyInto (b : Nat) (xs ys : List F32) : List F32 :=
  ys.mapIdx fun i y => if i < b then y else (xs[i - b]?).getD y

/-- The output copy into the render buffer of channel `c` (R150). -/
def choutCopy (c b : Nat) (xs : List F32) (chout : List (Nat × List F32)) : List (Nat × List F32) :=
  chout.map fun e => if e.1 = c then (e.1, copyInto b xs e.2) else e

/-- The first `n` samples of `areg[0]`, the master bus (R150). -/
def masterBus (n : Nat) (d : StackData) : List F32 := (d.readAudio 0).toList.take n

/-- Left-to-right binary32 sum after the first sample (R210); term `q` has draw `d + q`. -/
def sumFrom (d : Nat) (acc : F32) : List F32 → F32
  | [] => acc
  | x :: xs => sumFrom (d + 1) (fadd d acc x) xs

/-- `mix(j)` over the rendered channels' samples, in ascending channel order (R210). -/
def mix (p : Params) (d : Nat) (xs : List F32) : F32 :=
  match xs with
  | [] => f0
  | x :: rest =>
    match p.mixMode with
    | .sum => sumFrom d x rest
    | .overwrite => rest.getLast?.getD x

/-- `clamp(x)` (R211): a NaN passes. -/
def clamp (x : F32) : F32 := if flt x fm1 then fm1 else if fgt x f1 then f1 else x

/-- Sample `j` of every rendered channel (R210). -/
def choutColumn (chout : List (Nat × List F32)) (j : Nat) : List F32 := chout.map fun e => (e.2[j]?).getD f0

/-- `OutWrite(j, v)` (R72). -/
def outWrite (j : Nat) (v : F32) (s : State) : State := { s with outBuf := s.outBuf.set j v }

end Sys2Proof.Machine
end

