-- ==== Sys2Proof/Machine/Transaction.lean ====
section
/-! DEFINITION. The block transaction (R205 to R219) and the Stack iterator (R145 to R157), one step at a time: fetching the next command, event or node, executing it, and the steps in between. -/

namespace Sys2Proof.Machine

/-- `L > L_MAX` (R205). -/
def tooLong (p : Params) (len : Nat) : Bool :=
  match p.lMax with
  | none => false
  | some m => decide (m < len)

/-- The start of a `process_block` call: the driver's buffer, then phase 0 (R205, R206). -/
def beginBlock (blk : BlockIn) (s : State) : Host.Outcome State Fault Refusal :=
  if tooLong s.params blk.buffer.length then .refused .blockTooLong
  else if blk.connected then
    .next { s with
      outBuf := blk.buffer
      result := none
      tx := some { events := blk.events, len := blk.buffer.length, rate := blk.rate, chout := [], stage := .drain } }
  else .next { s with outBuf := blk.buffer, result := some .stop }

/-- One round of `drain()` (R207): pop the head of CMDQ, or find it empty and go on to the events. -/
def drainStep (s : State) : State :=
  match s.cmdq with
  | [] => setStage .midi s
  | msg :: rest => setStage (.apply msg) { s with cmdq := rest }

/-- `run_command(msg)` (R185): a message that is no command is discarded with BADCMD (R186). -/
def runCommand (msg : List Word) (s : State) : Host.Outcome State Fault Refusal :=
  match decodeCommand s.params msg with
  | .error _ => .next (raiseStatus .badcmd s)
  | .ok i => exec i s

/-- The render position at the first chunk of channel `c` of a block of `len` samples (R45, R146). -/
def channelStart (c len : Nat) : RenderPos := { c := c, b := 0, n := min 256 len, k := 0 }

/-- The start of the render phase (R209): a fresh render buffer for every active channel (R75), and the first channel slot. -/
def beginRender (tx : Tx) (s : State) : State :=
  { s with
    tx := some { tx with
      chout := freshBuffers s.draws tx.len s.activeChannels
      stage := .render (channelStart 0 tx.len) }
    draws := s.draws + s.activeChannels.length * tx.len }

/-- The output copy and the next chunk (R145, R150, R45). -/
def copyStep (tx : Tx) (pos : RenderPos) (S : Stack) (s : State) : State :=
  let b := pos.b + pos.n
  { s with tx := some { tx with
      chout := choutCopy pos.c pos.b (masterBus pos.n S.data) tx.chout
      stage := .render { c := pos.c, b := b, n := min 256 (tx.len - b), k := 0 } } }

/-- One step of the render phase (R209, R145): the node at the render position is executed, or the chunk is copied out, or the next channel is taken; an empty slot is passed over, and after the last slot the output phase begins. -/
def renderStep (tx : Tx) (pos : RenderPos) (s : State) : Host.Outcome State Fault Refusal :=
  match s.stack pos.c with
  | none =>
    if pos.c < s.params.nch then .next (setStage (.render (channelStart (pos.c + 1) tx.len)) s)
    else .next (setStage (.output 0) s)
  | some S =>
    if pos.b < tx.len then
      match S.nodes[pos.k]? with
      | some node => exec node.desc.toInstr s
      | none => .next (copyStep tx pos S s)
    else .next (setStage (.render (channelStart (pos.c + 1) tx.len)) s)

/-- One step of the output phase: sample `j` is mixed, clamped and written (R210 to R212), or the transaction returns Continue (R213). -/
def outputStep (tx : Tx) (j : Nat) (s : State) : State :=
  if j < tx.len then
    let v := clamp (mix s.params s.draws (choutColumn tx.chout j))
    setStage (.output (j + 1)) (outWrite j v { s with draws := s.draws + tx.chout.length })
  else { s with tx := none, result := some .cont }

/-- One step of the ASP. Between transactions it starts the driver's next block, or holds its state unchanged (R244). -/
def aspStep (s : State) : Host.Outcome State Fault Refusal :=
  match s.tx with
  | none =>
    match s.blocks with
    | [] => .next s
    | blk :: rest => beginBlock blk { s with blocks := rest }
  | some tx =>
    match tx.stage with
    | .drain => .next (drainStep s)
    | .apply msg => runCommand msg (setStage .drain s)
    | .midi =>
      match tx.events with
      | [] => .next (beginRender tx s)
      | ev :: rest => exec (decodeEvent ev) { s with tx := some { tx with events := rest } }
    | .render pos => renderStep tx pos s
    | .output j => .next (outputStep tx j s)

/-- One step of whoever's turn it is (R236). -/
def turnStep (t : Turn) (s : State) : Host.Outcome State Fault Refusal :=
  match t with
  | .asp => aspStep s
  | .push msg => .next (cmdPush msg s)
  | .popMirror => .next (mirrorPop s)
  | .readStatus => .next (statusRead s)
  | .writeStatus w => .next (writeStatus w s)
  | .powerOn => .next (powerOn s)

/-- One step of the machine: a configuration that breaks R10 has no semantics; then the next turn, or the ASP's when none is listed. -/
def machineStep (s : State) : Host.Outcome State Fault Refusal :=
  if s.params.wf then
    match s.turns with
    | [] => aspStep s
    | t :: rest => turnStep t { s with turns := rest }
  else .refused .badParameters

/-- A state in which a given input is the next thing the ASP runs (log entry 6): a command is the popped message, an event is the block's only event, a node is channel 0's only node at the start of a chunk of one sample. -/
def placeInput (fam : Family) (ws : List Word) (d : Option NodeDesc) (s : State) : State :=
  let tx : Tx := { events := [], len := 1, rate := 48000#32, chout := [], stage := .drain }
  let s := { s with turns := [], outBuf := [f0], result := none }
  match fam, d with
  | .node, some d =>
    let data := ((s.stack 0).map Stack.data).getD (zeroStackData s.params)
    beginRender tx (setSlot s 0 (some { nodes := [installNode d], data := data }))
  | .command, _ => { s with tx := some { tx with stage := .apply ws } }
  | _, _ => { s with tx := some { tx with events := ws, stage := .midi } }

end Sys2Proof.Machine
end

