-- ==== Sys2Proof/Machine/Step.lean ====
section
/-! DEFINITION. One step of the machine, and the placing of a table word as the very next instruction. -/

namespace Sys2Proof.Machine

/-- One step of the machine. -/
def step (s : State) : Host.Outcome State Fault Refusal := machineStep s

/-- The state in which the very next step runs the instruction of a table word (log entries 5 and 6). -/
def State.withFetchWord (s : State) (nbits w : Nat) : State :=
  placeInput (readTable s.params nbits w).1 (readTable s.params nbits w).2.1
    (instrNode (readTable s.params nbits w).2.2) s

end Sys2Proof.Machine
end

