-- ==== Sys2Proof/Safety.lean ====
section
/-! DEFINITION. The terms claims use: the invariant of the machine's states, the launch premises of R249, the bound on the work of a transaction (R218), and what a reader compares two states by. -/

namespace Sys2Proof.Machine

/-- A Stack within the storage bound of R83: at most `NODE_CAP` nodes, every bound port on a register that exists (R61), and files of `NA` and `NC` registers (R30). -/
def Stack.wf (p : Params) (S : Stack) : Bool :=
  decide (S.nodes.length ≤ p.nodeCap ∧ (∀ nd ∈ S.nodes, nd.desc.wf p = true) ∧ S.data.wf p = true)

/-- A transaction in progress is where R214 can be: its length is the driver's buffer's, the chunk length is that of R146, no index is out of range, and from the start of the render phase there is one render buffer of `L` samples for each active channel (R75). -/
def Tx.wf (s : State) (tx : Tx) : Bool :=
  decide (tx.len = s.outBuf.length ∧ tooLong s.params tx.len = false) &&
  match tx.stage with
  | .drain | .apply _ | .midi => decide (tx.chout = [])
  | .render pos =>
    decide (
      pos.c ≤ s.params.nch ∧ pos.b ≤ tx.len ∧ pos.n = min 256 (tx.len - pos.b) ∧
      (s.stack pos.c = none → pos.b = 0 ∧ pos.k = 0) ∧
      (∀ S ∈ s.stack pos.c, pos.k ≤ S.nodes.length ∧ (pos.b < tx.len ∨ pos.k = 0)) ∧
      tx.chout.map Prod.fst = s.activeChannels ∧ ∀ e ∈ tx.chout, e.2.length = tx.len)
  | .output j =>
    decide (j ≤ tx.len ∧ tx.chout.map Prod.fst = s.activeChannels ∧ ∀ e ∈ tx.chout, e.2.length = tx.len)

/-- An event word of class noteon (R98); only these are mirrored (R181). -/
def isNoteOnWord (w : Word) : Bool :=
  match decodeEvent w with
  | .noteon _ _ _ => true
  | _ => false

/-- The invariant of the machine's states. -/
def State.inv (s : State) : Bool :=
  decide (
    s.params.wf = true ∧
    s.ch.length = s.params.nch ∧
    (∀ slot ∈ s.ch, ∀ S ∈ slot, S.wf s.params = true) ∧
    s.held.toNat < 2 ^ 128 ∧
    s.heldCount ≤ 2 ^ s.params.heldW - 1 ∧
    s.status &&& 0xFFFFFFFC#32 = 0#32 ∧
    s.cmdq.length ≤ s.params.cmdCap ∧
    s.mirq.length ≤ s.params.mirrorCap ∧
    s.mirq.all isNoteOnWord = true ∧
    ∀ tx ∈ s.tx, tx.wf s = true)

/-! Launch premises (R249). -/

/-- `Reset` (R249): the ASP is in the state of R245, which a power-on reset leaves as it is, whatever the host was handed last. -/
def State.isReset (s : State) : Bool := decide ({ powerOn s with result := s.result, reply := s.reply } = s)

/-- The state of R245 under given parameters, with nothing on the host's side. -/
def State.resetWith (p : Params) : State := powerOn { State.reset with params := p }

/-- The turn is a controller push. -/
def Turn.isPush : Turn → Bool
  | .push _ => true
  | .asp | .popMirror | .readStatus | .writeStatus _ | .powerOn => false

/-- `Quiet` (R249) for a claim whose last transaction ends within `k` steps: CMDQ empty, STATUS 0, and no push among the turns of those steps. -/
def State.quiet (k : Nat) (s : State) : Bool :=
  decide (s.cmdq = [] ∧ s.status = 0#32) && (s.turns.take k).all fun t => !t.isPush

/-- The setch messages of a configuration: channels and node lists, in order. -/
abbrev SetupList := List (BitVec 8 × List NodeDesc)

/-- Every message of the configuration is well-formed with `CHAN < NCH`, and CMDQ can hold them all (R249, R55). -/
def SetupList.ok (p : Params) (cfg : SetupList) : Prop :=
  cfg.length ≤ p.cmdCap ∧ ∀ e ∈ cfg, (Instr.setch e.1 e.2).wf p = true ∧ e.1.toNat < p.nch

/-- `Reset` but for CMDQ, which holds exactly the messages of `cfg`, in order, with a connected call of no samples and no events to come first (R249): where a boot (R248) stands once its pushes are done. -/
def State.launched (p : Params) (cfg : SetupList) (s : State) : Prop :=
  s.params = p ∧ ({ s with cmdq := [] } : State).isReset = true ∧
  s.cmdq = cfg.map (fun e => encode (.setch e.1 e.2)) ∧
  ∃ rate later, s.blocks = { events := [], buffer := [], rate := rate, connected := true } :: later

/-- `Installed(cfg)` (R249): the state `t` after `Reset` followed by one connected transaction with `L = 0`, no events and CMDQ holding exactly `cfg`. `s₁` is a state of that transaction after its drain: no push and no reset comes before it. `s₂` is the last state of the transaction, and `t` the next: pushes may come by then, a reset may not. The rate is any: no sample is rendered. -/
def Installed (p : Params) (cfg : SetupList) (t : State) : Prop :=
  p.wf = true ∧ cfg.ok p ∧
  ∃ (s s₁ s₂ : State) (tx : Tx) (j k : Nat),
    s.launched p cfg ∧
    core.run j s = .next s₁ ∧ s₁.tx = some tx ∧ tx.stage = .midi ∧ s₁.blocks = s.blocks.tail ∧
    (∀ x ∈ s.turns.take j, x.isPush = false ∧ x ≠ .powerOn) ∧
    core.run k s₁ = .next s₂ ∧ s₂.tx ≠ none ∧ s₂.blocks = s₁.blocks ∧
    (∀ x ∈ s₁.turns.take (k + 1), x ≠ .powerOn) ∧
    step s₂ = .next t ∧ t.tx = none

/-- What the last message of `cfg` that names channel `c` installs there, and what the slot holds otherwise. -/
def SetupList.slot (p : Params) (cfg : SetupList) (c : Nat) (old : Option Stack) : Option Stack :=
  match cfg.reverse.find? (fun e => decide (e.1.toNat = c)) with
  | some e => some { nodes := e.2.map installNode, data := zeroStackData p }
  | none => old

/-! binary32 as numbers (R11, R12). -/

/-- The number a finite binary32 value stands for, from its sign, exponent and fraction fields. -/
def value (x : F32) : ℚ :=
  let e := (x.extractLsb' 23 8).toNat
  let f := (x.extractLsb' 0 23).toNat
  (if x.getLsbD 31 then -1 else 1) *
    (if e = 0 then (f : ℚ) / 2 ^ 149 else ((2 ^ 23 + f : Nat) : ℚ) * 2 ^ e / 2 ^ 150)

/-- Neither a NaN nor an infinity. -/
def isFinite (x : F32) : Bool := !isNaN x && !isInf x

/-- The infinity of a sign, by its bits. -/
def infinity (neg : Bool) : F32 := if neg then 0xFF800000#32 else 0x7F800000#32

/-- The zero of a sign, by its bits. -/
def signedZero (neg : Bool) : F32 := if neg then 0x80000000#32 else 0x00000000#32

/-- `r` is the exact result `x` rounded to binary32, to nearest with ties to even (R12): past the halfway point above the largest finite value it is an infinity, else no finite value is nearer and at a tie `r` is the one with an even last bit; the sign is that of `x`, and `zeroNeg` where `x` is zero. -/
def RoundsTo (x : ℚ) (zeroNeg : Bool) (r : F32) : Prop :=
  isNaN r = false ∧
  (isNeg r = if x = 0 then zeroNeg else decide (x < 0)) ∧
  (2 ^ 128 - 2 ^ 103 ≤ |x| → isInf r = true) ∧
  (|x| < 2 ^ 128 - 2 ^ 103 → isInf r = false ∧
    ∀ y, isFinite y = true → |x - value r| ≤ |x - value y| ∧
      (|x - value r| = |x - value y| → value y = value r ∨ r.getLsbD 0 = false))

/-- A number without its fraction part (R13). -/
def truncate (x : ℚ) : Int := if x < 0 then ⌈x⌉ else ⌊x⌋

/-- The chunks of a block of `len` samples (R146: `ceil(L/N)`). -/
def chunkCount (len : Nat) : Nat := (len + 255) / 256

/-- The steps one channel's rendering can take: every node and the copy of every chunk, and leaving the channel (R156). -/
def channelWork (p : Params) (len : Nat) : Nat := chunkCount len * (p.nodeCap + 1) + 1

/-- The steps from the start of the render phase to the end of the transaction, at most (R218). -/
def renderWork (p : Params) (len : Nat) : Nat := p.nch * channelWork p len + (len + 2)

/-- A bound on the ASP steps left in the transaction in progress (R218). -/
def txWork (s : State) (tx : Tx) : Nat :=
  match tx.stage with
  | .drain => 2 * s.cmdq.length + 1 + (tx.events.length + 1 + renderWork s.params tx.len)
  | .apply _ => 2 * s.cmdq.length + 2 + (tx.events.length + 1 + renderWork s.params tx.len)
  | .midi => tx.events.length + 1 + renderWork s.params tx.len
  | .render pos =>
    (s.params.nch - pos.c) * channelWork s.params tx.len
      - ((chunkCount tx.len - chunkCount (tx.len - pos.b)) * (s.params.nodeCap + 1) + pos.k) + (tx.len + 2)
  | .output j => tx.len - j + 1

/-- The bound of R218 for a state: 0 between transactions. -/
def State.work (s : State) : Nat :=
  match s.tx with
  | none => 0
  | some tx => txWork s tx

/-- The engine's MIDI state (R25): what no command and no rendering touches (R155, R199). -/
def State.midi (s : State) : F32 × BitVec 256 × Nat := (s.pitch, s.held, s.heldCount)

/-- What is not the ASP's own to change in an instruction: parameters and the host's side (R48, R230). -/
def State.hostSide (s : State) : Params × List F32 × Option BlockResult × Option Reply × List BlockIn × List Turn :=
  (s.params, s.outBuf, s.result, s.reply, s.blocks, s.turns)

/-- What a kernel leaves in an output port after a chunk of `n` samples whose results are `f` (R64, R65, R117, R119): an Audio port holds each sample's result and keeps the samples past the chunk (R39), a Control port holds the last sample's. -/
def ChunkOutput (n : Nat) (f : Nat → F32) (old new : Port) : Prop :=
  new.spec = old.spec ∧
  (old.isAudio = true → ∀ i < 256, new.get i = if i < n then f i else old.get i) ∧
  (old.isAudio = false → ∀ i, new.get i = if n = 0 then old.get i else f (n - 1))

/-- A node call has put `node` in its place, `data` in its channel, and the render position at the next node (R45, R115). -/
def NodeCallDone (t : State) (tx : Tx) (pos : RenderPos) (S : Stack) (node : Node) (data : StackData) : Prop :=
  t.stack pos.c = some { nodes := S.nodes.set pos.k node, data := data } ∧
  t.tx = some { tx with stage := .render { pos with k := pos.k + 1 } }

/-- The event is applied as a NoteOn and channel `k` is one of its retrigger targets (R169, R179). -/
def retriggers (p : Params) (i : Instr) (k : Nat) : Bool :=
  match i with
  | .noteon c _ v =>
    !(p.vel0NoteOff && decide (v = 0#7)) &&
    match p.retrigScope with
    | .messageChannel => decide (k = c.toNat)
    | .allActive => true
  | _ => false

/-- The gate and pitch registers of every active channel hold the derived gate and the current pitch (R176). -/
def GatePitchWritten (t : State) : Prop :=
  ∀ k S, t.stack k = some S →
    t.creg k t.params.gateCreg = some (if 0 < t.heldCount then f1 else f0) ∧
    t.creg k t.params.pitchCreg = some t.pitch

end Sys2Proof.Machine
end

