-- ==== Sys2Proof/Certificates/Slice0/Obligations.lean ====
section
/-! DEFINITION. The statements for the provers, from the spec's numbered rules. -/

open Sys2Proof Sys2Proof.Machine

/-! ## Encoding -/

/-- R114: the worked encoding example, for the descriptor, for the command that carries it and for the event. -/
def Obligations.WorkedEncodingExampleDecodes : Prop :=
  decode Params.default .node [0x00000004#32, 0x00000003#32, 0x00000001#32, 0x00000000#32, 0x00000001#32, 0x3F000000#32, 0x00000002#32]
      = .ok (.osc (.control 0#8) (.const 0x00000000#32) (.const 0x3F000000#32) (.audio 0#8)) ∧
  decode Params.default .command
      [0x00010300#32, 0x00000004#32, 0x00000003#32, 0x00000001#32, 0x00000000#32, 0x00000001#32, 0x3F000000#32, 0x00000002#32]
      = .ok (.setch 3#8 [.osc (.control 0#8) (.const 0x00000000#32) (.const 0x3F000000#32) (.audio 0#8)]) ∧
  decode Params.default .midi [0x00644500#32] = .ok (.noteon 0#4 69#7 100#7) ∧
  encode (.osc (.control 0#8) (.const 0x00000000#32) (.const 0x3F000000#32) (.audio 0#8))
      = [0x00000004#32, 0x00000003#32, 0x00000001#32, 0x00000000#32, 0x00000001#32, 0x3F000000#32, 0x00000002#32] ∧
  encode (.setch 3#8 [.osc (.control 0#8) (.const 0x00000000#32) (.const 0x3F000000#32) (.audio 0#8)])
      = [0x00010300#32, 0x00000004#32, 0x00000003#32, 0x00000001#32, 0x00000000#32, 0x00000001#32, 0x3F000000#32, 0x00000002#32] ∧
  encode (.noteon 0#4 69#7 100#7) = [0x00644500#32]

/-- Every well-formed instruction, with every operand its encoding admits, is read back from its words (R87 to R105). -/
def Obligations.DecodeOfEncodeIsTheInstruction : Prop :=
  ∀ (p : Params) (i : Instr), i.wf p = true → decode p i.family (encode i) = .ok i

/-- What a decoder accepts is well-formed, belongs to its input, and has exactly the words it was read from, so no accepted word has a bit without meaning (R95, R105, R108, R109). -/
def Obligations.EncodeOfDecodeIsTheWords : Prop :=
  ∀ (p : Params) (fam : Family) (ws : List Word) (i : Instr),
    decode p fam ws = .ok i → i.wf p = true ∧ i.family = fam ∧ encode i = ws

/-- R98, R99: the class of every event word. -/
def Obligations.EventWordClasses : Prop :=
  ∀ w : Word,
    ((w.getLsbD 15 = true ∨ w.extractLsb' 23 9 ≠ 0#9 ∨ 3 ≤ (w.extractLsb' 0 4).toNat) → decodeEvent w = .other w) ∧
    (w.getLsbD 15 = false → w.extractLsb' 23 9 = 0#9 →
      (w.extractLsb' 0 4 = 0#4 → decodeEvent w = .noteon (w.extractLsb' 4 4) (w.extractLsb' 8 7) (w.extractLsb' 16 7)) ∧
      (w.extractLsb' 0 4 = 1#4 → decodeEvent w = .noteoff (w.extractLsb' 4 4) (w.extractLsb' 8 7) (w.extractLsb' 16 7)) ∧
      (w.extractLsb' 0 4 = 2#4 → decodeEvent w = .reset (w.extractLsb' 4 4) (w.extractLsb' 8 7) (w.extractLsb' 16 7)))

/-- A message is rejected exactly when no well-formed command has its words (R105, R109); and bits 3:0 of the first word of whatever a decoder accepts are the KIND (R89), TYPE (R98) or OP (R103) of its row, a descriptor inside a payload among it. -/
def Obligations.MessageIsMalformedExactlyWhenNoCommandHasItsWords : Prop :=
  (∀ (p : Params) (msg : List Word),
    (∃ e, decodeCommand p msg = .error e) ↔ ¬ ∃ i : Instr, i.wf p = true ∧ i.family = .command ∧ encode i = msg) ∧
  (∀ (p : Params) (fam : Family) (h : Word) (rest : List Word) (i : Instr), decode p fam (h :: rest) = .ok i →
    h.extractLsb' 0 4 = match i with
      | .abs _ _ => 0#4 | .add _ _ _ => 1#4 | .adsr _ _ _ _ _ _ _ => 2#4 | .mul _ _ _ => 3#4 | .osc _ _ _ _ => 4#4
      | .noteon _ _ _ => 0#4 | .noteoff _ _ _ => 1#4 | .reset _ _ _ => 2#4 | .other w => w.extractLsb' 0 4
      | .setch _ _ => 0#4 | .replace _ _ => 1#4 | .rmch _ => 2#4 | .resetdata => 3#4 | .addnode _ _ _ => 4#4) ∧
  ∀ (p : Params) (h : Word) (rest rest' : List Word) (d : NodeDesc), parseNode p (h :: rest) = .ok (d, rest') →
    h.extractLsb' 0 4 = match d with
      | .abs _ _ => 0#4 | .add _ _ _ => 1#4 | .adsr _ _ _ _ _ _ _ => 2#4 | .mul _ _ _ => 3#4 | .osc _ _ _ _ => 4#4

/-! ## The step -/

/-- The step runs the decoded instruction, with nothing around it but the consumption of the turn and of its words: a popped command leaves the apply stage (R207), an event leaves the list (R208), and the node at the render position is the instruction its own descriptor's words decode to (R147). The ASP steps when its turn is listed first, and when no turn is listed (log entry 3); every other statement about a step with no turn listed is one about the ASP's step. -/
def Obligations.StepRunsTheDecodedInstruction : Prop :=
  (∀ s : State, s.params.wf = true →
    (s.turns = [] → step s = aspStep s) ∧
    (∀ rest, s.turns = .asp :: rest → step s = aspStep { s with turns := rest })) ∧
  (∀ (s : State) (tx : Tx) (msg : List Word) (i : Instr), s.params.wf = true → (s.turns = [] ∨ s.turns.head? = some .asp) →
    s.tx = some tx → tx.stage = .apply msg → decode s.params .command msg = .ok i →
    step s = exec i { s with turns := s.turns.tail, tx := some { tx with stage := .drain } }) ∧
  (∀ (s : State) (tx : Tx) (ev : Word) (rest : List Word) (i : Instr), s.params.wf = true →
    (s.turns = [] ∨ s.turns.head? = some .asp) → s.tx = some tx →
    tx.stage = .midi → tx.events = ev :: rest → decode s.params .midi [ev] = .ok i →
    step s = exec i { s with turns := s.turns.tail, tx := some { tx with events := rest } }) ∧
  (∀ (s : State) (tx : Tx) (pos : RenderPos) (S : Stack) (node : Node) (i : Instr), s.params.wf = true →
    (s.turns = [] ∨ s.turns.head? = some .asp) →
    s.tx = some tx → tx.stage = .render pos → s.stack pos.c = some S → pos.b < tx.len → S.nodes[pos.k]? = some node →
    decode s.params .node (encodeNode node.desc) = .ok i →
    step s = exec i { s with turns := s.turns.tail })

/-- R186: a malformed message changes no state except STATUS.BADCMD. -/
def Obligations.MalformedCommandSetsBadcmdOnly : Prop :=
  ∀ (s : State) (tx : Tx) (msg : List Word) (e : DecodeError), s.params.wf = true → s.turns = [] → s.tx = some tx →
    tx.stage = .apply msg → decodeCommand s.params msg = .error e →
    step s = .next { s with status := s.status ||| 0x00000001#32, tx := some { tx with stage := .drain } }

/-- R235: a push is accepted at the tail, or rejected with the queue unchanged. -/
def Obligations.PushIsAcceptedOrRejected : Prop :=
  ∀ (s : State) (msg : List Word) (rest : List Turn), s.params.wf = true → s.turns = .push msg :: rest →
    (s.cmdq.length < s.params.cmdCap →
      step s = .next { s with turns := rest, cmdq := s.cmdq ++ [msg], reply := some .ok }) ∧
    (s.params.cmdCap ≤ s.cmdq.length → step s = .next { s with turns := rest, reply := some .full })

/-- R237: a pop hands back the head of MIRQ, or Empty. -/
def Obligations.MirrorPopTakesTheHead : Prop :=
  ∀ (s : State) (rest : List Turn), s.params.wf = true → s.turns = .popMirror :: rest →
    (s.mirq = [] → step s = .next { s with turns := rest, reply := some .empty }) ∧
    (∀ w ws, s.mirq = w :: ws → step s = .next { s with turns := rest, mirq := ws, reply := some (.event w) })

/-- R238: a STATUS read has no side effect and reads bits 31:2 as 0; a write clears the written ones of bits 0 and 1 and nothing else. -/
def Obligations.StatusReadAndWrite : Prop :=
  (∀ (s : State) (rest : List Turn), s.params.wf = true → s.turns = .readStatus :: rest →
    ∃ v : Word, step s = .next { s with turns := rest, reply := some (.status v) } ∧
      ∀ b < 32, v.getLsbD b = (decide (b < 2) && s.status.getLsbD b)) ∧
  (∀ (s : State) (w : Word) (rest : List Turn), s.params.wf = true → s.turns = .writeStatus w :: rest →
    ∃ v : Word, step s = .next { s with turns := rest, status := v } ∧
      ∀ b < 32, v.getLsbD b = if b < 2 then s.status.getLsbD b && !w.getLsbD b else s.status.getLsbD b)

/-- R57: the state after power-on reset, under the default parameters, and after a power-on reset of any state under its own. -/
def Obligations.PowerOnResetValues : Prop :=
  (∀ k < 16, State.reset.ch[k]? = some none) ∧ State.reset.ch.length = 16 ∧ State.reset.pitch = 0x00000000#32 ∧
  State.reset.held = 0#256 ∧ State.reset.heldCount = 0 ∧ State.reset.status = 0#32 ∧ State.reset.cmdq = [] ∧
  State.reset.mirq = [] ∧ State.reset.tx = none ∧
  ∀ (s : State) (rest : List Turn), s.params.wf = true → s.turns = .powerOn :: rest →
    ∃ t, step s = .next t ∧ (∀ k < s.params.nch, t.ch[k]? = some none) ∧ t.ch.length = s.params.nch ∧
      t.pitch = s.params.pitchInit ∧ t.held = 0#256 ∧ t.heldCount = 0 ∧ t.status = 0#32 ∧ t.cmdq = [] ∧ t.mirq = [] ∧
      t.tx = none ∧ t.params = s.params

/-! ## The block transaction -/

/-- R207, R236: the drain pops the head of CMDQ, or finds it empty and goes on to the events without waiting. -/
def Obligations.DrainPopsInFifoOrder : Prop :=
  ∀ (s : State) (tx : Tx), s.params.wf = true → s.turns = [] → s.tx = some tx → tx.stage = .drain →
    (∀ msg rest, s.cmdq = msg :: rest →
      step s = .next { s with cmdq := rest, tx := some { tx with stage := .apply msg } }) ∧
    (s.cmdq = [] → step s = .next { s with tx := some { tx with stage := .midi } })

/-- R206: a disconnected block returns Stop and has no other effect; the buffer is the one the driver handed over. -/
def Obligations.DisconnectedBlockStopsWithNoOtherEffect : Prop :=
  ∀ (s : State) (blk : BlockIn) (rest : List BlockIn), s.params.wf = true → s.turns = [] → s.tx = none →
    s.blocks = blk :: rest → blk.connected = false → tooLong s.params blk.buffer.length = false →
    step s = .next { s with blocks := rest, outBuf := blk.buffer, result := some .stop }

/-- Between transactions (R244, R205): with no call pending the whole state is held; a connected call starts at the drain; a block longer than `L_MAX` is refused (I21). -/
def Obligations.IdleHoldsItsStateUntilTheNextBlock : Prop :=
  ∀ s : State, s.params.wf = true → s.turns = [] → s.tx = none →
    (s.blocks = [] → step s = .next s) ∧
    (∀ blk rest, s.blocks = blk :: rest → blk.connected = true →
      (∀ m, s.params.lMax = some m → blk.buffer.length ≤ m) →
      step s = .next { s with
        blocks := rest
        outBuf := blk.buffer
        result := none
        tx := some { events := blk.events, len := blk.buffer.length, rate := blk.rate, chout := [], stage := .drain } }) ∧
    (∀ blk rest m, s.blocks = blk :: rest → s.params.lMax = some m → m < blk.buffer.length → step s = .refused .blockTooLong)

/-- R10: a configuration that breaks a constraint has no semantics. -/
def Obligations.ConfigurationThatBreaksAConstraintIsRefused : Prop :=
  ∀ s : State,
    ¬ (1 ≤ s.params.na ∧ s.params.na ≤ 256 ∧ s.params.nc ≤ 256 ∧ s.params.pitchCreg < s.params.nc ∧
       s.params.gateCreg < s.params.nc ∧ s.params.pitchCreg ≠ s.params.gateCreg ∧
       1 ≤ s.params.nodeCap ∧ s.params.nodeCap ≤ 255 ∧ 1 ≤ s.params.nch ∧ s.params.nch ≤ 256 ∧
       1 ≤ s.params.cmdCap ∧ 1 ≤ s.params.mirrorCap ∧
       (∀ k, s.params.timeReg = .audio k → k < s.params.na) ∧
       (∀ k, s.params.timeReg = .control k → k < s.params.nc) ∧
       s.params.timeReg ≠ .control s.params.pitchCreg ∧ s.params.timeReg ≠ .control s.params.gateCreg) →
    step s = .refused .badParameters

/-- R75, R145, R150, R209, R45: the steps of the render phase between node calls. After the last event a fresh render buffer of `L` samples stands for every active channel and rendering begins at the first channel slot. After the last node of a chunk the first `n` samples of `areg[0]` are copied into the channel's render buffer from offset `b`, with every other sample of every buffer kept, and the next chunk begins; at the end of the block, or at an empty slot, rendering moves to the next channel; after the last slot the output phase begins. -/
def Obligations.RenderPositionAdvances : Prop :=
  (∀ (s : State) (tx : Tx), s.params.wf = true → s.turns = [] → s.tx = some tx → tx.stage = .midi → tx.events = [] →
    ∃ (bufs : List (Nat × List F32)) (d : Nat), bufs.map Prod.fst = s.activeChannels ∧ (∀ e ∈ bufs, e.2.length = tx.len) ∧
      step s = .next { s with draws := d, tx := some { tx with
        chout := bufs
        stage := .render { c := 0, b := 0, n := min 256 tx.len, k := 0 } } }) ∧
  ∀ (s : State) (tx : Tx) (pos : RenderPos), s.params.wf = true → s.turns = [] → s.tx = some tx → tx.stage = .render pos →
    (∀ S, s.stack pos.c = some S → pos.b < tx.len → S.nodes.length ≤ pos.k → pos.n ≤ 256 →
      ∃ bufs : List (Nat × List F32), step s = .next { s with tx := some { tx with
          chout := bufs
          stage := .render { c := pos.c, b := pos.b + pos.n, n := min 256 (tx.len - (pos.b + pos.n)), k := 0 } } } ∧
        bufs.length = tx.chout.length ∧
        ∀ (q : Nat) (e : Nat × List F32), tx.chout[q]? = some e → ∃ ys : List F32, bufs[q]? = some (e.1, ys) ∧ ys.length = e.2.length ∧
          ∀ j < e.2.length, ys[j]? =
            if e.1 = pos.c ∧ pos.b ≤ j ∧ j < pos.b + pos.n then (S.data.readAudio 0)[j - pos.b]? else e.2[j]?) ∧
    (∀ S, s.stack pos.c = some S → tx.len ≤ pos.b →
      step s = .next { s with tx := some { tx with stage := .render { c := pos.c + 1, b := 0, n := min 256 tx.len, k := 0 } } }) ∧
    (s.stack pos.c = none → pos.c < s.params.nch →
      step s = .next { s with tx := some { tx with stage := .render { c := pos.c + 1, b := 0, n := min 256 tx.len, k := 0 } } }) ∧
    (s.stack pos.c = none → s.params.nch ≤ pos.c → step s = .next { s with tx := some { tx with stage := .output 0 } })

/-- R157: an empty node list copies `areg[0]` to the channel's render buffer, sample `j` from `areg[0][j mod N]`, for a block of any length, so that nothing is left of what the fresh buffer held (R75); on fresh registers every sample is +0.0; the other channels' buffers stay. -/
def Obligations.EmptyProgramCopiesTheMasterBus : Prop :=
  ∀ (s : State) (tx : Tx) (c : Nat) (S : Stack), s.params.wf = true → s.turns = [] → s.tx = some tx →
    tx.stage = .render { c := c, b := 0, n := min 256 tx.len, k := 0 } → s.stack c = some S → S.nodes = [] →
    ∃ bufs : List (Nat × List F32),
      core.run (chunkCount tx.len) s = .next { s with tx := some { tx with
        chout := bufs
        stage := .render { c := c, b := tx.len, n := 0, k := 0 } } } ∧
      bufs.length = tx.chout.length ∧
      ∀ (q : Nat) (e : Nat × List F32), tx.chout[q]? = some e →
        (e.1 ≠ c → bufs[q]? = some e) ∧
        (e.1 = c → e.2.length = tx.len → ∃ ys : List F32, bufs[q]? = some (c, ys) ∧ ys.length = tx.len ∧
          (∀ j < tx.len, ys[j]? = (S.data.readAudio 0)[j % 256]?) ∧
          (S.data = zeroStackData s.params → ∀ j < tx.len, ys[j]? = some 0x00000000#32))

/-- R210: the mixed value of the rendered channels' samples. With one channel its sample passes unchanged; Sum adds left to right from the first channel's sample, one binary32 add each; Overwrite takes the highest channel's. -/
def Obligations.MixerCombinesChannels : Prop :=
  ∀ (p : Params) (d : Nat),
    mix p d [] = 0x00000000#32 ∧ (∀ x, mix p d [x] = x) ∧
    (p.mixMode = .sum → ∀ (x : F32) (xs : List F32), ∃ (acc : Nat → F32) (draw : Nat → Nat), acc 0 = x ∧
      (∀ q, ∀ h : q < xs.length, acc (q + 1) = fadd (draw q) (acc q) xs[q]) ∧ mix p d (x :: xs) = acc xs.length) ∧
    (p.mixMode = .overwrite → ∀ (xs : List F32) (x : F32), mix p d (xs ++ [x]) = x)

/-- R211: the clamp, for every binary32 value; a NaN and both zeros pass unchanged, and an infinity becomes ±1.0. -/
def Obligations.ClampCases : Prop :=
  clamp 0x7F800000#32 = 0x3F800000#32 ∧ clamp 0xFF800000#32 = 0xBF800000#32 ∧ clamp 0x80000000#32 = 0x80000000#32 ∧
  clamp 0x00000000#32 = 0x00000000#32 ∧
  ∀ x : F32, (flt x 0xBF800000#32 = true → clamp x = 0xBF800000#32) ∧ (fgt x 0x3F800000#32 = true → clamp x = 0x3F800000#32) ∧
    (flt x 0xBF800000#32 = false → fgt x 0x3F800000#32 = false → clamp x = x) ∧ (isNaN x = true → clamp x = x) ∧
    (isNaN x = false → flt (clamp x) 0xBF800000#32 = false ∧ fgt (clamp x) 0x3F800000#32 = false)

/-- R212, R213: from the start of the output phase, one step a sample and one to return, every sample of the driver's buffer is written once with the clamped mix of its column, and the transaction returns Continue; with no channel rendered every sample is +0.0. -/
def Obligations.OutputPhaseWritesEverySampleAndContinues : Prop :=
  ∀ (s : State) (tx : Tx), s.params.wf = true → s.turns = [] → s.tx = some tx → tx.stage = .output 0 →
    tx.len = s.outBuf.length →
    ∃ (out : List F32) (d : Nat), out.length = tx.len ∧
      (tx.chout = [] → ∀ j < tx.len, out[j]? = some 0x00000000#32) ∧
      (∀ j < tx.len, ∃ dj, out[j]? = some (clamp (mix s.params dj (tx.chout.map fun e => (e.2[j]?).getD 0#32)))) ∧
      core.run (tx.len + 1) s = .next { s with outBuf := out, draws := d, tx := none, result := some .cont }

/-! ## Ports -/

/-- R64, R65: the uniform index. A write is seen at its own offset of an Audio port and at every offset of a Control port, and changes only the local. -/
def Obligations.UniformIndexReadAfterWrite : Prop :=
  ∀ (P : Port) (i : Nat) (v : F32), i < 256 →
    (P.put i v).spec = P.spec ∧
    (P.isAudio = true → ∀ j < 256, (P.put i v).get j = if j = i then v else P.get j) ∧
    (P.isAudio = false → ∀ j, (P.put i v).get j = v)

/-- R66, R67, R31: port read and port write move a whole register of the port's own file; an unbound port moves nothing; a write leaves every other register, and the whole other file, alone. -/
def Obligations.PortReadAndWriteMoveWholeRegisters : Prop :=
  ∀ (p : Params) (data : StackData), data.wf p = true →
    (∀ (k : BitVec 8) (v : Samples), k.toNat < p.na →
      Port.read (.audio k v) data = .audio k (data.readAudio k.toNat) ∧
      (Port.write (.audio k v) data).readAudio k.toNat = v ∧
      (∀ r, r ≠ k.toNat → (Port.write (.audio k v) data).areg[r]? = data.areg[r]?) ∧
      (Port.write (.audio k v) data).creg = data.creg) ∧
    (∀ (k : BitVec 8) (x : F32), k.toNat < p.nc →
      Port.read (.control k x) data = .control k (data.readControl k.toNat) ∧
      (Port.write (.control k x) data).readControl k.toNat = x ∧
      (∀ r, r ≠ k.toNat → (Port.write (.control k x) data).creg[r]? = data.creg[r]?) ∧
      (Port.write (.control k x) data).areg = data.areg) ∧
    (∀ (c x : F32), Port.read (.const c x) data = .const c x ∧ Port.write (.const c x) data = data) ∧
    (∀ v : Samples, Port.read (.freeAudio v) data = .freeAudio v ∧ Port.write (.freeAudio v) data = data)

/-- R38, R42: the values of a freshly installed node: ports by their descriptors, scalars at +0.0. -/
def Obligations.InstalledNodeValues : Prop :=
  (∀ d : NodeDesc, (installNode d).desc = d) ∧
  (∀ (q : PortSpec) (i : Nat), i < 256 →
    (installPort q).get i = match q with | .const v => v | .audio _ | .control _ | .freeAudio => 0x00000000#32) ∧
  (∀ i o : PortSpec, installNode (.abs i o) = .abs (installPort i) (installPort o)) ∧
  (∀ a b o : PortSpec, installNode (.add a b o) = .add (installPort a) (installPort b) (installPort o)) ∧
  (∀ a b o : PortSpec, installNode (.mul a b o) = .mul (installPort a) (installPort b) (installPort o)) ∧
  (∀ g a d s r t o : PortSpec, installNode (.adsr g a d s r t o) =
    .adsr (installPort g) (installPort a) (installPort d) (installPort s) (installPort r) (installPort t) (installPort o)
      0x00000000#32 0x00000000#32) ∧
  (∀ f w q o : PortSpec, installNode (.osc f w q o) =
    .osc (installPort f) (installPort w) (installPort q) (installPort o) 0x00000000#32)

/-! ## Node kernels -/

/-- R120: abs completes at its render position, for every mix of port kinds. -/
def Obligations.AbsCompletesWithMagnitudes : Prop :=
  ∀ (s : State) (tx : Tx) (pos : RenderPos) (S : Stack) (pi po : Port),
    s.nodeAt = some ⟨tx, pos, S, .abs pi po⟩ →
    ∃ (t : State) (po' : Port), exec (.abs pi.spec po.spec) s = .next t ∧
      NodeCallDone t tx pos S (.abs (pi.read S.data) po') (po'.write S.data) ∧
      ChunkOutput pos.n (fun i => fabs ((pi.read S.data).get i)) po po'

/-- R122: add completes with the sums of its two inputs, each one binary32 add. -/
def Obligations.AddCompletesWithSums : Prop :=
  ∀ (s : State) (tx : Tx) (pos : RenderPos) (S : Stack) (pa pb po : Port),
    s.nodeAt = some ⟨tx, pos, S, .add pa pb po⟩ →
    ∃ (t : State) (po' : Port) (draw : Nat → Nat), exec (.add pa.spec pb.spec po.spec) s = .next t ∧
      NodeCallDone t tx pos S (.add (pa.read S.data) (pb.read S.data) po') (po'.write S.data) ∧
      ChunkOutput pos.n (fun i => fadd (draw i) ((pa.read S.data).get i) ((pb.read S.data).get i)) po po'

/-- R125: mul completes with the products of its two inputs, each one binary32 multiplication. -/
def Obligations.MulCompletesWithProducts : Prop :=
  ∀ (s : State) (tx : Tx) (pos : RenderPos) (S : Stack) (pa pb po : Port),
    s.nodeAt = some ⟨tx, pos, S, .mul pa pb po⟩ →
    ∃ (t : State) (po' : Port) (draw : Nat → Nat), exec (.mul pa.spec pb.spec po.spec) s = .next t ∧
      NodeCallDone t tx pos S (.mul (pa.read S.data) (pb.read S.data) po') (po'.write S.data) ∧
      ChunkOutput pos.n (fun i => fmul (draw i) ((pa.read S.data).get i) ((pb.read S.data).get i)) po po'

/-- R128: osc completes. `phase i` is the stored phase before sample `i`; each sample wraps it, forms the output from the wrapped phase, and advances without a wrap. The sequence `draw` names the NaN draws. -/
def Obligations.OscCompletesWithWrappedPhases : Prop :=
  ∀ (s : State) (tx : Tx) (pos : RenderPos) (S : Stack) (pf pw pq po : Port) (phase0 : F32),
    s.nodeAt = some ⟨tx, pos, S, .osc pf pw pq po phase0⟩ →
    ∃ (t : State) (po' : Port) (phase wrapped y : Nat → F32) (draw : Nat → Nat → Nat),
      exec (.osc pf.spec pw.spec pq.spec po.spec) s = .next t ∧
      NodeCallDone t tx pos S (.osc (pf.read S.data) (pw.read S.data) (pq.read S.data) po' (phase pos.n)) (po'.write S.data) ∧
      phase 0 = phase0 ∧
      (∀ i < pos.n,
        wrapped i = oscWrap s.params (draw i 0) (phase i) ∧
        (oscShape (draw i 1) ((pw.read S.data).get i) = .saw →
          y i = fsub (draw i 3) (fmul (draw i 2) (wrapped i) 0x40000000#32) 0x3F800000#32) ∧
        (oscShape (draw i 1) ((pw.read S.data).get i) = .pulse →
          y i = if fgt (wrapped i) ((pq.read S.data).get i) then 0x3F800000#32 else 0xBF800000#32) ∧
        (oscShape (draw i 1) ((pw.read S.data).get i) = .silence → y i = 0x00000000#32) ∧
        phase (i + 1) = fadd (draw i 5) (wrapped i) (fdiv (draw i 4) ((pf.read S.data).get i) (u32ToF32 tx.rate))) ∧
      ChunkOutput pos.n y po po'

/-- R134, R135, R133, R68: adsr completes. `time i`, `volt i` and `prev i` are the time port, the voltage and the previous gate before sample `i`; `edge i` is the time port after the note-on edge of sample `i`. `time` is committed after `output`. A NaN decay while `time < attack` takes the attack segment or the sustain segment, as the configuration follows R134's pseudocode or R137 (log entry 25). -/
def Obligations.AdsrCompletesWithEnvelope : Prop :=
  ∀ (s : State) (tx : Tx) (pos : RenderPos) (S : Stack) (pg pa pd ps pr pt po : Port) (volt0 prev0 : F32),
    s.nodeAt = some ⟨tx, pos, S, .adsr pg pa pd ps pr pt po volt0 prev0⟩ →
    ∃ (t : State) (po' : Port) (time edge : Nat → Port) (volt prev : Nat → F32) (draw : Nat → Nat → Nat),
      exec (.adsr pg.spec pa.spec pd.spec ps.spec pr.spec pt.spec po.spec) s = .next t ∧
      NodeCallDone t tx pos S
        (.adsr (pg.read S.data) (pa.read S.data) (pd.read S.data) (ps.read S.data) (pr.read S.data)
          (time pos.n) po' (volt pos.n) (prev pos.n))
        ((time pos.n).write (po'.write S.data)) ∧
      time 0 = pt.read S.data ∧ volt 0 = volt0 ∧ prev 0 = prev0 ∧
      (∀ i < pos.n,
        let gate := (pg.read S.data).get i
        let attack := (pa.read S.data).get i
        let decay := (pd.read S.data).get i
        let sustain := (ps.read S.data).get i
        let release := (pr.read S.data).get i
        let tm := (edge i).get i
        edge i = (if fne gate 0#32 = true ∧ feq (prev i) 0#32 = true then (time i).put i 0#32 else time i) ∧
        (fne gate 0#32 = true → flt tm attack = true → isNaN decay = false ∨ s.params.nanDecay = .attack →
          volt (i + 1) = fdiv (draw i 0) tm attack) ∧
        (fne gate 0#32 = true → flt tm attack = true → isNaN decay = true → s.params.nanDecay = .sustain →
          volt (i + 1) = match s.params.adsrSustain with | .explicit => sustain | .hold => volt i) ∧
        (fne gate 0#32 = true → flt tm attack = false → flt tm (fadd (draw i 1) attack decay) = true →
          volt (i + 1) = fadd (draw i 7) (fdiv (draw i 6) (fmul (draw i 5) (fsub (draw i 3) (fadd (draw i 2) decay attack) tm)
            (fsub (draw i 4) 0x3F800000#32 sustain)) decay) sustain) ∧
        (fne gate 0#32 = true → flt tm attack = false → flt tm (fadd (draw i 1) attack decay) = false →
          volt (i + 1) = match s.params.adsrSustain with | .explicit => sustain | .hold => volt i) ∧
        (fne gate 0#32 = false →
          volt (i + 1) =
            let v := fsub (draw i 10) (volt i) (fdiv (draw i 9) sustain (fmul (draw i 8) release (u32ToF32 tx.rate)))
            if flt v 0#32 = true ∨ isNaN v = true then 0#32 else v) ∧
        prev (i + 1) = gate ∧
        time (i + 1) = (edge i).put i (fadd (draw i 12) tm (fdiv (draw i 11) 0x3F800000#32 (u32ToF32 tx.rate)))) ∧
      ChunkOutput pos.n (fun i => volt (i + 1)) po po'

/-- The frame of the five node kernels (R117, R155, R29, R80): no engine state, no queue, nothing of the host's, no other channel, no other node, no descriptor, and no register but those bound by an output port. -/
def Obligations.NodeKernelFrame : Prop :=
  ∀ (s t : State) (tx : Tx) (pos : RenderPos) (S : Stack) (node : Node),
    s.nodeAt = some ⟨tx, pos, S, node⟩ → exec node.desc.toInstr s = .next t →
    t.hostSide = s.hostSide ∧ t.midi = s.midi ∧ t.status = s.status ∧ t.cmdq = s.cmdq ∧ t.mirq = s.mirq ∧
    (∀ c, c ≠ pos.c → t.ch[c]? = s.ch[c]?) ∧
    (∀ c, (t.nodes c).map (List.map Node.desc) = (s.nodes c).map (List.map Node.desc)) ∧
    (∀ k, k ≠ pos.k → (t.nodes pos.c).bind (fun l => l[k]?) = (s.nodes pos.c).bind (fun l => l[k]?)) ∧
    (∀ r j, (∀ k : BitVec 8, k.toNat = r → PortSpec.audio k ∉ node.desc.outputs) → t.areg pos.c r j = s.areg pos.c r j) ∧
    (∀ r, (∀ k : BitVec 8, k.toNat = r → PortSpec.control k ∉ node.desc.outputs) → t.creg pos.c r = s.creg pos.c r)

/-- R86 (the model's reading, log entry 17): a descriptor that is not the one installed at the render position is not executed. -/
def Obligations.NodeAwayFromItsRenderPositionIsRefused : Prop :=
  ∀ (s : State) (d : NodeDesc), (∀ x, s.nodeAt = some x → x.node.desc ≠ d) → exec d.toInstr s = .refused .notAtNode

/-- R127: the waveform selector, for every binary32 value. -/
def Obligations.WaveformSelector : Prop :=
  ∀ (d : Nat) (x : F32),
    oscShape d x = if isNaN x = true then .silence else if flt x 0x3F800000#32 = true then .saw else .pulse

/-! ## binary32 -/

/-- R13, R121: `|x|` clears the sign bit and leaves every other bit unchanged, of a NaN too. -/
def Obligations.AbsClearsOnlyTheSignBit : Prop :=
  ∀ (x : F32) (b : Nat), b < 32 → (fabs x).getLsbD b = (decide (b ≠ 31) && x.getLsbD b)

/-- R123, R126: addition and multiplication are commutative bit for bit on operands that are no NaN (with one draw for a NaN result), and multiplying by 1.0 copies every value that is no NaN. -/
def Obligations.AddAndMulCommuteAndMulByOneCopies : Prop :=
  (∀ (d : Nat) (a b : F32), isNaN a = false → isNaN b = false → fadd d a b = fadd d b a) ∧
  (∀ (d : Nat) (a b : F32), isNaN a = false → isNaN b = false → fmul d a b = fmul d b a) ∧
  (∀ (d : Nat) (x : F32), isNaN x = false → fmul d x 0x3F800000#32 = x)

/-- R12, R13, R122, R125: the results of finite operands. A sum, difference, product or quotient, and the conversion of an integer, is the exact result rounded to nearest, ties to even, with overflow to an infinity; an exact zero sum is +0.0 unless both operands are negative, and a zero product or quotient has the exclusive-or of the signs. `floor` and `fmod` are exact and keep the sign. And the results with an infinite operand or a zero divisor that are no NaN (R118): an infinity outweighs a finite addend, a product or quotient has the exclusive-or of the signs, a finite value over an infinity is a zero, a value that is not zero over a zero is an infinity, and the floor of an infinity is itself. -/
def Obligations.FiniteArithmeticIsCorrectlyRounded : Prop :=
  (∀ (d : Nat) (a b : F32), isFinite a = true → isFinite b = true →
    RoundsTo (value a + value b) (isNeg a && isNeg b) (fadd d a b) ∧
    RoundsTo (value a - value b) (isNeg a && !isNeg b) (fsub d a b) ∧
    RoundsTo (value a * value b) (isNeg a != isNeg b) (fmul d a b) ∧
    (value b ≠ 0 → RoundsTo (value a / value b) (isNeg a != isNeg b) (fdiv d a b)) ∧
    (value b ≠ 0 → isFinite (ffmod d a b) = true ∧ isNeg (ffmod d a b) = isNeg a ∧
      value (ffmod d a b) = value a - value b * truncate (value a / value b)) ∧
    isFinite (ffloor d a) = true ∧ isNeg (ffloor d a) = isNeg a ∧ value (ffloor d a) = ⌊value a⌋) ∧
  (∀ k : BitVec 32, RoundsTo (k.toNat : ℚ) false (u32ToF32 k)) ∧
  ∀ (d : Nat) (a b : F32),
    (isInf a = true → isFinite b = true →
      fadd d a b = a ∧ fadd d b a = a ∧ fsub d a b = a ∧ fsub d b a = infinity (!isNeg a) ∧
      fdiv d a b = infinity (isNeg a != isNeg b) ∧ fdiv d b a = signedZero (isNeg b != isNeg a) ∧ ffloor d a = a) ∧
    (isInf a = true → isInf b = true → (isNeg a = isNeg b → fadd d a b = a) ∧ (isNeg a ≠ isNeg b → fsub d a b = a) ∧
      fmul d a b = infinity (isNeg a != isNeg b)) ∧
    (isInf a = true → isFinite b = true → value b ≠ 0 →
      fmul d a b = infinity (isNeg a != isNeg b) ∧ fmul d b a = infinity (isNeg b != isNeg a)) ∧
    (isFinite a = true → isFinite b = true → value a ≠ 0 → value b = 0 → fdiv d a b = infinity (isNeg a != isNeg b))

/-- R12, R14: the comparisons of operands that are no NaN are those of the numbers they stand for, the two zeros equal, with the infinities above and below every finite value; `>` is `<` exchanged and `!=` is not `==`. -/
def Obligations.ComparisonsOrderTheValues : Prop :=
  ∀ a b : F32, isNaN a = false → isNaN b = false →
    (isFinite a = true → isFinite b = true →
      (flt a b = true ↔ value a < value b) ∧ (feq a b = true ↔ value a = value b)) ∧
    (isFinite a = true → isInf b = true → flt a b = !isNeg b ∧ flt b a = isNeg b ∧ feq a b = false ∧ feq b a = false) ∧
    (isInf a = true → isInf b = true → flt a b = (isNeg a && !isNeg b) ∧ feq a b = (isNeg a == isNeg b)) ∧
    fgt a b = flt b a ∧ fne a b = !feq a b

/-- R14: a comparison with a NaN operand is false for `<`, `>`, `==` and true for `!=`. -/
def Obligations.ComparisonsWithNaN : Prop :=
  ∀ a b : F32, isNaN a = true ∨ isNaN b = true →
    flt a b = false ∧ fgt a b = false ∧ feq a b = false ∧ fne a b = true

/-- R12, R15, R118: a NaN operand gives a NaN whatever the draw, and so do the invalid operations, and nothing else does. -/
def Obligations.NaNResultsOfArithmetic : Prop :=
  ∀ (d : Nat) (a b : F32),
    (isNaN (fadd d a b) = true ↔ isNaN a = true ∨ isNaN b = true ∨ (isInf a = true ∧ isInf b = true ∧ isNeg a ≠ isNeg b)) ∧
    (isNaN (fsub d a b) = true ↔ isNaN a = true ∨ isNaN b = true ∨ (isInf a = true ∧ isInf b = true ∧ isNeg a = isNeg b)) ∧
    (isNaN (fmul d a b) = true ↔ isNaN a = true ∨ isNaN b = true ∨ (isInf a = true ∧ magBits b = 0) ∨ (magBits a = 0 ∧ isInf b = true)) ∧
    (isNaN (fdiv d a b) = true ↔ isNaN a = true ∨ isNaN b = true ∨ (isInf a = true ∧ isInf b = true) ∨ (magBits a = 0 ∧ magBits b = 0)) ∧
    (isNaN (ffloor d a) = true ↔ isNaN a = true) ∧
    (isNaN (ffmod d a 0x3F800000#32) = true ↔ isNaN a = true ∨ isInf a = true)

/-- R129, R13: the default wrap is `fmod(phase, 1.0)`, exact for a finite phase; it gives a value in [0, 1) for every finite phase that is not negative, a value in (-1, 0] with the sign of the phase for a finite negative one, a phase already in (-1, 1) unchanged, and a NaN for an infinite or NaN phase. The model's floored modulo (C6, log entry 8) gives a value in [0, 1) for every finite phase. -/
def Obligations.DefaultPhaseWrapRange : Prop :=
  ∀ (p : Params) (d : Nat) (x : F32),
    (p.oscWrap = .fmod →
      oscWrap p d x = ffmod d x 0x3F800000#32 ∧
      (isFinite x = true → value (oscWrap p d x) = value x - truncate (value x)) ∧
      (isFinite x = true → flt x 0#32 = false →
        flt (oscWrap p d x) 0x3F800000#32 = true ∧ flt (oscWrap p d x) 0#32 = false) ∧
      (isFinite x = true → flt x 0#32 = true →
        fgt (oscWrap p d x) 0xBF800000#32 = true ∧ fgt (oscWrap p d x) 0#32 = false ∧ isNeg (oscWrap p d x) = true) ∧
      (flt x 0x3F800000#32 = true → fgt x 0xBF800000#32 = true → oscWrap p d x = x) ∧
      (isNaN x = true ∨ isInf x = true → isNaN (oscWrap p d x) = true)) ∧
    (p.oscWrap = .floored → isFinite x = true →
      flt (oscWrap p d x) 0x3F800000#32 = true ∧ flt (oscWrap p d x) 0#32 = false)

/-! ## MIDI events -/

/-- R170, R168, R181, R178, R176, R169: a NoteOn; with `VEL0_NOTEOFF` a velocity of 0 is handled as a NoteOff. -/
def Obligations.NoteOnCompletes : Prop :=
  ∀ (s : State) (c : BitVec 4) (n v : BitVec 7), s.inv = true →
    ((s.params.vel0NoteOff = true ∧ v = 0#7) → exec (.noteon c n v) s = exec (.noteoff c n v) s) ∧
    (¬ (s.params.vel0NoteOff = true ∧ v = 0#7) →
      ∃ t, exec (.noteon c n v) s = .next t ∧
        (∀ i : BitVec 8, bitContains t.held i = (decide (i.toNat = n.toNat) || bitContains s.held i)) ∧
        t.heldCount = min (s.heldCount + 1) (2 ^ s.params.heldW - 1) ∧
        s.params.noteFreq[n.toNat]? = some t.pitch ∧
        t.mirq = (if s.mirq.length < s.params.mirrorCap then s.mirq ++ [eventWord 0#4 c n v] else s.mirq) ∧
        GatePitchWritten t ∧
        (∀ k, (s.params.retrigScope = .allActive ∨ k = c.toNat) → (s.stack k).isSome = true →
          match s.params.timeReg with
          | .control r => t.creg k r = some 0x00000000#32
          | .audio r => ∀ j < 256, t.areg k r j = some 0x00000000#32))

/-- R172: a NoteOff decrements the counter (floor at 0), clears the note, leaves the pitch, and writes gate and pitch. -/
def Obligations.NoteOffCompletes : Prop :=
  ∀ (s : State) (c : BitVec 4) (n v : BitVec 7), s.inv = true →
    ∃ t, exec (.noteoff c n v) s = .next t ∧
      (∀ i : BitVec 8, bitContains t.held i = (!decide (i.toNat = n.toNat) && bitContains s.held i)) ∧
      t.heldCount = max (s.heldCount - 1) 0 ∧ t.pitch = s.pitch ∧ GatePitchWritten t

/-- R174: a Reset zeroes the counter, clears the set, leaves the pitch, and writes gate and pitch; no node and no register but those two of each channel changes. -/
def Obligations.MidiResetCompletes : Prop :=
  ∀ (s : State) (c : BitVec 4) (n v : BitVec 7), s.inv = true →
    ∃ t, exec (.reset c n v) s = .next t ∧ (∀ i : BitVec 8, bitContains t.held i = false) ∧ t.heldCount = 0 ∧
      t.pitch = s.pitch ∧ GatePitchWritten t ∧ (∀ k, t.nodes k = s.nodes k) ∧ (∀ k r j, t.areg k r j = s.areg k r j) ∧
      (∀ k r, r ≠ s.params.gateCreg → r ≠ s.params.pitchCreg → t.creg k r = s.creg k r)

/-- R175: any other event changes no engine state; with `OTHER_WRITES` it writes gate and pitch and no node and no register but those two of each active channel changes, without it nothing happens. -/
def Obligations.OtherEventCompletes : Prop :=
  ∀ (s : State) (w : Word), s.inv = true →
    (s.params.otherWrites = true → ∃ t, exec (.other w) s = .next t ∧ t = { s with ch := t.ch } ∧ GatePitchWritten t ∧
      (∀ k, t.nodes k = s.nodes k) ∧ (∀ k r j, t.areg k r j = s.areg k r j) ∧
      (∀ k r, r ≠ s.params.gateCreg → r ≠ s.params.pitchCreg → t.creg k r = s.creg k r)) ∧
    (s.params.otherWrites = false → exec (.other w) s = .next s)

/-- The frame of the four events (R176, R178, R179, R180): the transaction, CMDQ, STATUS, the draws and the host's side stay; no node changes; no register changes but gate and pitch of active channels and, for a NoteOn, TIME_REG of its targets; only a NoteOn changes the pitch or pushes to the mirror. -/
def Obligations.MidiEventFrame : Prop :=
  ∀ (s t : State) (i : Instr), i.family = .midi → exec i s = .next t →
    t.hostSide = s.hostSide ∧ t.tx = s.tx ∧ t.cmdq = s.cmdq ∧ t.status = s.status ∧ t.draws = s.draws ∧
    (∀ k, t.nodes k = s.nodes k) ∧
    (∀ k r, r ≠ s.params.gateCreg → r ≠ s.params.pitchCreg →
      (s.params.timeReg ≠ .control r ∨ retriggers s.params i k = false) → t.creg k r = s.creg k r) ∧
    (∀ k r j, (s.params.timeReg ≠ .audio r ∨ retriggers s.params i k = false) → t.areg k r j = s.areg k r j) ∧
    ((∀ c n v, i ≠ .noteon c n v) → t.pitch = s.pitch ∧ t.mirq = s.mirq)

/-- R160 to R164: the BitSet operations and the readout, which lists the members in ascending order. -/
def Obligations.HeldNoteBitSetLaws : Prop :=
  ∀ (held : BitVec 256) (i j : BitVec 8),
    bitContains (bitSet held i) j = (decide (j = i) || bitContains held j) ∧
    bitContains (bitClear held i) j = (!decide (j = i) && bitContains held j) ∧
    bitContains bitClearAll j = false ∧
    (j.toNat ∈ bitIter held ↔ bitContains held j = true) ∧
    (∀ n ∈ bitIter held, n < 256) ∧ (bitIter held).Pairwise (· < ·)

/-! ## Structural commands -/

/-- R190, R189: SetChannel installs the node list and an all-zero register file in its slot, whatever was there, and changes nothing else. -/
def Obligations.SetChannelInstallsAFreshStack : Prop :=
  ∀ (s : State) (c : BitVec 8) (ds : List NodeDesc), s.inv = true → c.toNat < s.params.nch →
    ∃ t, exec (.setch c ds) s = .next t ∧ t = { s with ch := t.ch } ∧
      (∀ k, k ≠ c.toNat → t.ch[k]? = s.ch[k]?) ∧
      t.nodes c.toNat = some (ds.map installNode) ∧
      (∀ r < s.params.na, ∀ j < 256, t.areg c.toNat r j = some 0x00000000#32) ∧
      (∀ r < s.params.nc, t.creg c.toNat r = some 0x00000000#32)

/-- R192, R193: ReplaceNodes swaps the node list of an active channel and keeps its register file; an empty slot is left as it is. -/
def Obligations.ReplaceNodesKeepsTheRegisterFile : Prop :=
  ∀ (s : State) (c : BitVec 8) (ds : List NodeDesc), s.inv = true → c.toNat < s.params.nch →
    (s.stack c.toNat = none → exec (.replace c ds) s = .next s) ∧
    (∀ S, s.stack c.toNat = some S →
      ∃ t, exec (.replace c ds) s = .next t ∧ t = { s with ch := t.ch } ∧
        (∀ k, k ≠ c.toNat → t.ch[k]? = s.ch[k]?) ∧
        t.stack c.toNat = some { nodes := ds.map installNode, data := S.data })

/-- R194: RemoveChannel empties its slot and changes nothing else. -/
def Obligations.RemoveChannelEmptiesTheSlot : Prop :=
  ∀ (s : State) (c : BitVec 8), s.inv = true → c.toNat < s.params.nch →
    ∃ t, exec (.rmch c) s = .next t ∧ t = { s with ch := t.ch } ∧ t.ch[c.toNat]? = some none ∧
      (∀ k, k ≠ c.toNat → t.ch[k]? = s.ch[k]?)

/-- R195, R196: ResetData zeroes every register of every active channel; nodes, with their scalars and locals, and everything else stay. -/
def Obligations.ResetDataZeroesEveryActiveChannel : Prop :=
  ∀ s : State, s.inv = true →
    ∃ t, exec .resetdata s = .next t ∧ t = { s with ch := t.ch } ∧ (∀ k, t.nodes k = s.nodes k) ∧
      (∀ k, (s.stack k).isSome = true →
        (∀ r < s.params.na, ∀ j < 256, t.areg k r j = some 0x00000000#32) ∧
        (∀ r < s.params.nc, t.creg k r = some 0x00000000#32))

/-- R197, R185: AddNode sets STATUS.UNIMPL and changes no other state; a message of OP 4 is an AddNode exactly when its header's reserved bits are 0, whatever follows, and is malformed otherwise. -/
def Obligations.AddNodeSetsUnimplOnly : Prop :=
  (∀ (s : State) (c n : BitVec 8) (payload : List Word),
    exec (.addnode c n payload) s = .next { s with status := s.status ||| 0x00000002#32 }) ∧
  (∀ (p : Params) (h : Word) (payload : List Word), h.extractLsb' 0 4 = 4#4 →
    (h.extractLsb' 4 4 = 0#4 → h.extractLsb' 24 8 = 0#8 →
      decodeCommand p (h :: payload) = .ok (.addnode (h.extractLsb' 8 8) (h.extractLsb' 16 8) payload)) ∧
    ((h.extractLsb' 4 4 ≠ 0#4 ∨ h.extractLsb' 24 8 ≠ 0#8) → decodeCommand p (h :: payload) = .error .hdrReserved))

/-- R187: a channel index out of range is ignored. -/
def Obligations.ChannelOutOfRangeIsIgnored : Prop :=
  ∀ (s : State) (c : BitVec 8) (ds : List NodeDesc), s.params.nch ≤ c.toNat →
    exec (.setch c ds) s = .next s ∧ exec (.replace c ds) s = .next s ∧ exec (.rmch c) s = .next s

/-! ## The whole machine -/

/-- The invariant holds after power-on reset. -/
def Obligations.InvariantHoldsAtReset : Prop := State.reset.inv = true

/-- Every step keeps the invariant: files of their sizes, every bound register in range (R61, R223), the queues within their capacities (R55, R56), the counter within its width (R50), STATUS with its reserved bits 0 (R53), bits 128 to 255 of the held set 0 (R27), the mirror with NoteOns only (R181), and the render position and render buffers as R146 and R209 have them. -/
def Obligations.EveryStepKeepsTheInvariant : Prop :=
  ∀ s t : State, s.inv = true → step s = .next t → t.inv = true

/-- R221: every input has a defined outcome. From a state that meets the invariant the only step without a next state is the driver passing a block longer than `L_MAX` (I21). -/
def Obligations.OnlyABlockLongerThanTheLimitStopsTheMachine : Prop :=
  ∀ s : State, s.inv = true →
    (∃ t, step s = .next t) ∨
    (step s = .refused .blockTooLong ∧ s.tx = none ∧
      ∃ blk rest m, s.blocks = blk :: rest ∧ s.params.lMax = some m ∧ m < blk.buffer.length)

/-- R214, R218: a transaction always runs to its result. Each ASP step of a transaction completes and uses up some of a bound on the work left, which is 0 only between transactions. -/
def Obligations.TransactionWorkIsBounded : Prop :=
  ∀ (s : State) (tx : Tx), s.inv = true → s.tx = some tx →
    ∃ t, aspStep s = .next t ∧ t.work < s.work

/-- R249 (`Installed`), R188, R214: a whole transaction. A connected block of no samples and no events, with CMDQ holding exactly well-formed setch messages for channels in range, runs to its result Continue; every channel named then holds the freshly installed nodes and registers of the last message that names it, and every other channel, the MIDI state, STATUS and MIRQ are as before. -/
def Obligations.InstallingBlockInstallsEveryChannel : Prop :=
  ∀ (s : State) (cfg : SetupList) (rate : BitVec 32), s.inv = true → s.turns = [] → s.tx = none →
    s.cmdq = cfg.map (fun e => encode (.setch e.1 e.2)) →
    s.blocks = [{ events := [], buffer := [], rate := rate, connected := true }] →
    (∀ e ∈ cfg, (Instr.setch e.1 e.2).wf s.params = true ∧ e.1.toNat < s.params.nch) →
    ∃ k t, core.run k s = .next t ∧ t.tx = none ∧ t.result = some .cont ∧ t.blocks = [] ∧ t.cmdq = [] ∧
      t.midi = s.midi ∧ t.status = s.status ∧ t.mirq = s.mirq ∧ t.params = s.params ∧
      ∀ c < s.params.nch, t.ch[c]? = some (cfg.slot s.params c (s.stack c))

/-- R249, R245, R190: `Installed(cfg)`. For every well-formed configuration an installed state with an empty CMDQ exists; and in every installed state, whatever turns other than resets were taken meanwhile and whatever was pushed once the drain was over, every channel that `cfg` names is active with the freshly installed nodes and registers all +0.0 (gate, pitch and time among them) of the last message naming it, every other slot is empty, `STATUS = 0`, MIRQ is empty, the MIDI state is that of reset, and the transaction has returned Continue. -/
def Obligations.InstalledStates : Prop :=
  ∀ (p : Params) (cfg : SetupList), p.wf = true → cfg.ok p →
    (∃ t, Installed p cfg t ∧ t.cmdq = []) ∧
    ∀ t, Installed p cfg t → t.status = 0#32 ∧ t.mirq = [] ∧ t.midi = (p.pitchInit, 0#256, 0) ∧ t.params = p ∧
      t.tx = none ∧ t.result = some .cont ∧
      t.ch.length = p.nch ∧ ∀ c < p.nch, t.ch[c]? = some (cfg.slot p c none)

/-- R155, R29: a step of one channel's rendering changes no other channel, no MIDI state, no queue, no STATUS bit and no sample of the driver's buffer, keeps the transaction's events, length and rate, and keeps every other channel's render buffer. -/
def Obligations.RenderingStaysInItsChannel : Prop :=
  ∀ (s t : State) (tx : Tx) (pos : RenderPos), s.tx = some tx → tx.stage = .render pos → aspStep s = .next t →
    (∀ c, c ≠ pos.c → t.ch[c]? = s.ch[c]?) ∧ t.midi = s.midi ∧ t.cmdq = s.cmdq ∧ t.mirq = s.mirq ∧ t.status = s.status ∧
    t.hostSide = s.hostSide ∧
    ∃ tx', t.tx = some tx' ∧ tx'.events = tx.events ∧ tx'.len = tx.len ∧ tx'.rate = tx.rate ∧
      tx'.chout.map Prod.fst = tx.chout.map Prod.fst ∧
      ∀ (q : Nat) (e : Nat × List F32), tx.chout[q]? = some e → e.1 ≠ pos.c → tx'.chout[q]? = some e

/-- R180: the pitch changes only on a NoteOn, which gives it the note's frequency (or on power-on reset, R57). -/
def Obligations.OnlyANoteOnChangesThePitch : Prop :=
  ∀ s t : State, step s = .next t → t.pitch ≠ s.pitch →
    (∃ tx ev rest c n v, s.tx = some tx ∧ tx.stage = .midi ∧ tx.events = ev :: rest ∧ decodeEvent ev = .noteon c n v ∧
      t.pitch = noteFreq s.params n) ∨
    s.turns.head? = some .powerOn

/-- R52: the ASP never clears a STATUS bit, and no ASP step changes the parameters (R48). -/
def Obligations.AspNeverClearsAStatusBit : Prop :=
  ∀ s t : State, aspStep s = .next t →
    (∀ b, s.status.getLsbD b = true → t.status.getLsbD b = true) ∧ t.params = s.params

/-- R80: outside the application of a command, no ASP step changes a node descriptor, adds or removes a node, or opens or empties a channel. -/
def Obligations.OnlyCommandsChangeTheProgramStore : Prop :=
  ∀ (s t : State), (∀ tx msg, s.tx = some tx → tx.stage ≠ .apply msg) → aspStep s = .next t →
    ∀ c, (t.nodes c).map (List.map Node.desc) = (s.nodes c).map (List.map Node.desc)
end

