-- ==== Sys2Proof/Laws/Decode.lean ====
section
/-! SUPPORT. The fields of the words the encoder builds (R88, R92, R97, R102), and the form of what it builds. -/

namespace Sys2Proof

theorem field_getLsbD (w : Word) (lo width i : Nat) : (field w lo width).getLsbD i = (decide (i < width) && w.getLsbD (lo + i)) := by
  simp [field, BitVec.getLsbD_extractLsb']

section
variable (t c : BitVec 4) (n v : BitVec 7)

/-- Bit `i` of an event word, by the field it lies in (R97). -/
theorem eventWord_getLsbD (i : Nat) : (eventWord t c n v).getLsbD i =
    if i < 4 then t.getLsbD i else if i < 8 then c.getLsbD (i - 4) else if i < 15 then n.getLsbD (i - 8)
    else if i < 16 then false else if i < 23 then v.getLsbD (i - 16) else false := by
  unfold eventWord
  simp only [BitVec.getLsbD_append, BitVec.getLsbD_zero]
  split_ifs <;> first | rfl | omega

theorem eventWord_type : field (eventWord t c n v) 0 4 = t := by
  apply BitVec.eq_of_getLsbD_eq; intro i hi
  rw [field_getLsbD, eventWord_getLsbD, Nat.zero_add, if_pos hi, decide_eq_true hi, Bool.true_and]

theorem eventWord_chan : field (eventWord t c n v) 4 4 = c := by
  apply BitVec.eq_of_getLsbD_eq; intro i hi
  rw [field_getLsbD, eventWord_getLsbD, if_neg (by omega), if_pos (by omega), decide_eq_true hi, Bool.true_and, Nat.add_sub_cancel_left]

theorem eventWord_note : field (eventWord t c n v) 8 7 = n := by
  apply BitVec.eq_of_getLsbD_eq; intro i hi
  rw [field_getLsbD, eventWord_getLsbD, if_neg (by omega), if_neg (by omega), if_pos (by omega), decide_eq_true hi,
    Bool.true_and, Nat.add_sub_cancel_left]

theorem eventWord_vel : field (eventWord t c n v) 16 7 = v := by
  apply BitVec.eq_of_getLsbD_eq; intro i hi
  rw [field_getLsbD, eventWord_getLsbD, if_neg (by omega), if_neg (by omega), if_neg (by omega), if_neg (by omega),
    if_pos (by omega), decide_eq_true hi, Bool.true_and, Nat.add_sub_cancel_left]

theorem eventWord_reserved15 : field (eventWord t c n v) 15 1 = 0#1 := by
  apply BitVec.eq_of_getLsbD_eq; intro i hi
  rw [field_getLsbD, eventWord_getLsbD, if_neg (by omega), if_neg (by omega), if_neg (by omega), if_pos (by omega),
    Bool.and_false, BitVec.getLsbD_zero]

theorem eventWord_reserved31 : field (eventWord t c n v) 23 9 = 0#9 := by
  apply BitVec.eq_of_getLsbD_eq; intro i hi
  rw [field_getLsbD, eventWord_getLsbD, if_neg (by omega), if_neg (by omega), if_neg (by omega), if_neg (by omega),
    if_neg (by omega), Bool.and_false, BitVec.getLsbD_zero]

end

section
variable (op : BitVec 4) (c n : BitVec 8)

/-- Bit `i` of a command header, by the field it lies in (R102). -/
theorem commandHeader_getLsbD (i : Nat) : (commandHeader op c n).getLsbD i =
    if i < 4 then op.getLsbD i else if i < 8 then false else if i < 16 then c.getLsbD (i - 8)
    else if i < 24 then n.getLsbD (i - 16) else false := by
  unfold commandHeader
  simp only [BitVec.getLsbD_append, BitVec.getLsbD_zero]
  split_ifs <;> first | rfl | omega

theorem commandHeader_op : field (commandHeader op c n) 0 4 = op := by
  apply BitVec.eq_of_getLsbD_eq; intro i hi
  rw [field_getLsbD, commandHeader_getLsbD, Nat.zero_add, if_pos hi, decide_eq_true hi, Bool.true_and]

theorem commandHeader_reserved7 : field (commandHeader op c n) 4 4 = 0#4 := by
  apply BitVec.eq_of_getLsbD_eq; intro i hi
  rw [field_getLsbD, commandHeader_getLsbD, if_neg (by omega), if_pos (by omega), Bool.and_false, BitVec.getLsbD_zero]

theorem commandHeader_chan : field (commandHeader op c n) 8 8 = c := by
  apply BitVec.eq_of_getLsbD_eq; intro i hi
  rw [field_getLsbD, commandHeader_getLsbD, if_neg (by omega), if_neg (by omega), if_pos (by omega), decide_eq_true hi,
    Bool.true_and, Nat.add_sub_cancel_left]

theorem commandHeader_nnodes : field (commandHeader op c n) 16 8 = n := by
  apply BitVec.eq_of_getLsbD_eq; intro i hi
  rw [field_getLsbD, commandHeader_getLsbD, if_neg (by omega), if_neg (by omega), if_neg (by omega), if_pos (by omega),
    decide_eq_true hi, Bool.true_and, Nat.add_sub_cancel_left]

theorem commandHeader_reserved31 : field (commandHeader op c n) 24 8 = 0#8 := by
  apply BitVec.eq_of_getLsbD_eq; intro i hi
  rw [field_getLsbD, commandHeader_getLsbD, if_neg (by omega), if_neg (by omega), if_neg (by omega), if_neg (by omega),
    Bool.and_false, BitVec.getLsbD_zero]

end

/-- A port takes one word, or two when it is Control and unbound (R87). -/
theorem length_encodePort (q : PortSpec) : 1 ≤ (encodePort q).length ∧ (encodePort q).length ≤ 2 := by
  cases q <;> simp [encodePort]

theorem length_encodePorts (qs : List PortSpec) :
    qs.length ≤ (qs.flatMap encodePort).length ∧ (qs.flatMap encodePort).length ≤ 2 * qs.length := by
  induction qs with
  | nil => simp
  | cons q qs ih =>
    have := length_encodePort q
    simp only [List.flatMap_cons, List.length_append, List.length_cons]
    omega

/-- A descriptor of `P` ports is `1 + P` to `1 + 2 P` words long (R90). -/
theorem length_encodeNode (d : NodeDesc) :
    1 + d.ports.length ≤ (encodeNode d).length ∧ (encodeNode d).length ≤ 1 + 2 * d.ports.length := by
  have := length_encodePorts d.ports
  simp only [encodeNode, List.length_cons]
  omega

end Sys2Proof
end

