-- ==== Sys2Proof/Laws/State.lean ====
section
/-! SUPPORT. What each named update does to each field of State: one lemma a field, so that no later proof unfolds an update. -/

namespace Sys2Proof.Machine

@[simp] theorem setSlot_params (s : State) (c : Nat) (v : Option Stack) : (setSlot s c v).params = s.params := rfl
@[simp] theorem setSlot_ch (s : State) (c : Nat) (v : Option Stack) : (setSlot s c v).ch = s.ch.set c v := rfl
@[simp] theorem setSlot_pitch (s : State) (c : Nat) (v : Option Stack) : (setSlot s c v).pitch = s.pitch := rfl
@[simp] theorem setSlot_held (s : State) (c : Nat) (v : Option Stack) : (setSlot s c v).held = s.held := rfl
@[simp] theorem setSlot_heldCount (s : State) (c : Nat) (v : Option Stack) : (setSlot s c v).heldCount = s.heldCount := rfl
@[simp] theorem setSlot_status (s : State) (c : Nat) (v : Option Stack) : (setSlot s c v).status = s.status := rfl
@[simp] theorem setSlot_cmdq (s : State) (c : Nat) (v : Option Stack) : (setSlot s c v).cmdq = s.cmdq := rfl
@[simp] theorem setSlot_mirq (s : State) (c : Nat) (v : Option Stack) : (setSlot s c v).mirq = s.mirq := rfl
@[simp] theorem setSlot_tx (s : State) (c : Nat) (v : Option Stack) : (setSlot s c v).tx = s.tx := rfl
@[simp] theorem setSlot_outBuf (s : State) (c : Nat) (v : Option Stack) : (setSlot s c v).outBuf = s.outBuf := rfl
@[simp] theorem setSlot_result (s : State) (c : Nat) (v : Option Stack) : (setSlot s c v).result = s.result := rfl
@[simp] theorem setSlot_reply (s : State) (c : Nat) (v : Option Stack) : (setSlot s c v).reply = s.reply := rfl
@[simp] theorem setSlot_blocks (s : State) (c : Nat) (v : Option Stack) : (setSlot s c v).blocks = s.blocks := rfl
@[simp] theorem setSlot_turns (s : State) (c : Nat) (v : Option Stack) : (setSlot s c v).turns = s.turns := rfl
@[simp] theorem setSlot_draws (s : State) (c : Nat) (v : Option Stack) : (setSlot s c v).draws = s.draws := rfl

@[simp] theorem mapActive_params (f : Stack → Stack) (s : State) : (mapActive f s).params = s.params := rfl
@[simp] theorem mapActive_ch (f : Stack → Stack) (s : State) : (mapActive f s).ch = s.ch.map (Option.map f) := rfl
@[simp] theorem mapActive_pitch (f : Stack → Stack) (s : State) : (mapActive f s).pitch = s.pitch := rfl
@[simp] theorem mapActive_held (f : Stack → Stack) (s : State) : (mapActive f s).held = s.held := rfl
@[simp] theorem mapActive_heldCount (f : Stack → Stack) (s : State) : (mapActive f s).heldCount = s.heldCount := rfl
@[simp] theorem mapActive_status (f : Stack → Stack) (s : State) : (mapActive f s).status = s.status := rfl
@[simp] theorem mapActive_cmdq (f : Stack → Stack) (s : State) : (mapActive f s).cmdq = s.cmdq := rfl
@[simp] theorem mapActive_mirq (f : Stack → Stack) (s : State) : (mapActive f s).mirq = s.mirq := rfl
@[simp] theorem mapActive_tx (f : Stack → Stack) (s : State) : (mapActive f s).tx = s.tx := rfl
@[simp] theorem mapActive_outBuf (f : Stack → Stack) (s : State) : (mapActive f s).outBuf = s.outBuf := rfl
@[simp] theorem mapActive_result (f : Stack → Stack) (s : State) : (mapActive f s).result = s.result := rfl
@[simp] theorem mapActive_reply (f : Stack → Stack) (s : State) : (mapActive f s).reply = s.reply := rfl
@[simp] theorem mapActive_blocks (f : Stack → Stack) (s : State) : (mapActive f s).blocks = s.blocks := rfl
@[simp] theorem mapActive_turns (f : Stack → Stack) (s : State) : (mapActive f s).turns = s.turns := rfl
@[simp] theorem mapActive_draws (f : Stack → Stack) (s : State) : (mapActive f s).draws = s.draws := rfl

@[simp] theorem modifyChannel_params (c : Nat) (f : Stack → Stack) (s : State) : (modifyChannel c f s).params = s.params := rfl
@[simp] theorem modifyChannel_ch (c : Nat) (f : Stack → Stack) (s : State) : (modifyChannel c f s).ch = s.ch.modify c (Option.map f) := rfl
@[simp] theorem modifyChannel_pitch (c : Nat) (f : Stack → Stack) (s : State) : (modifyChannel c f s).pitch = s.pitch := rfl
@[simp] theorem modifyChannel_held (c : Nat) (f : Stack → Stack) (s : State) : (modifyChannel c f s).held = s.held := rfl
@[simp] theorem modifyChannel_heldCount (c : Nat) (f : Stack → Stack) (s : State) : (modifyChannel c f s).heldCount = s.heldCount := rfl
@[simp] theorem modifyChannel_status (c : Nat) (f : Stack → Stack) (s : State) : (modifyChannel c f s).status = s.status := rfl
@[simp] theorem modifyChannel_cmdq (c : Nat) (f : Stack → Stack) (s : State) : (modifyChannel c f s).cmdq = s.cmdq := rfl
@[simp] theorem modifyChannel_mirq (c : Nat) (f : Stack → Stack) (s : State) : (modifyChannel c f s).mirq = s.mirq := rfl
@[simp] theorem modifyChannel_tx (c : Nat) (f : Stack → Stack) (s : State) : (modifyChannel c f s).tx = s.tx := rfl
@[simp] theorem modifyChannel_outBuf (c : Nat) (f : Stack → Stack) (s : State) : (modifyChannel c f s).outBuf = s.outBuf := rfl
@[simp] theorem modifyChannel_result (c : Nat) (f : Stack → Stack) (s : State) : (modifyChannel c f s).result = s.result := rfl
@[simp] theorem modifyChannel_reply (c : Nat) (f : Stack → Stack) (s : State) : (modifyChannel c f s).reply = s.reply := rfl
@[simp] theorem modifyChannel_blocks (c : Nat) (f : Stack → Stack) (s : State) : (modifyChannel c f s).blocks = s.blocks := rfl
@[simp] theorem modifyChannel_turns (c : Nat) (f : Stack → Stack) (s : State) : (modifyChannel c f s).turns = s.turns := rfl
@[simp] theorem modifyChannel_draws (c : Nat) (f : Stack → Stack) (s : State) : (modifyChannel c f s).draws = s.draws := rfl

@[simp] theorem setStage_params (st : Stage) (s : State) : (setStage st s).params = s.params := rfl
@[simp] theorem setStage_ch (st : Stage) (s : State) : (setStage st s).ch = s.ch := rfl
@[simp] theorem setStage_pitch (st : Stage) (s : State) : (setStage st s).pitch = s.pitch := rfl
@[simp] theorem setStage_held (st : Stage) (s : State) : (setStage st s).held = s.held := rfl
@[simp] theorem setStage_heldCount (st : Stage) (s : State) : (setStage st s).heldCount = s.heldCount := rfl
@[simp] theorem setStage_status (st : Stage) (s : State) : (setStage st s).status = s.status := rfl
@[simp] theorem setStage_cmdq (st : Stage) (s : State) : (setStage st s).cmdq = s.cmdq := rfl
@[simp] theorem setStage_mirq (st : Stage) (s : State) : (setStage st s).mirq = s.mirq := rfl
@[simp] theorem setStage_tx (st : Stage) (s : State) : (setStage st s).tx = (s.tx.map fun t => { t with stage := st }) := rfl
@[simp] theorem setStage_outBuf (st : Stage) (s : State) : (setStage st s).outBuf = s.outBuf := rfl
@[simp] theorem setStage_result (st : Stage) (s : State) : (setStage st s).result = s.result := rfl
@[simp] theorem setStage_reply (st : Stage) (s : State) : (setStage st s).reply = s.reply := rfl
@[simp] theorem setStage_blocks (st : Stage) (s : State) : (setStage st s).blocks = s.blocks := rfl
@[simp] theorem setStage_turns (st : Stage) (s : State) : (setStage st s).turns = s.turns := rfl
@[simp] theorem setStage_draws (st : Stage) (s : State) : (setStage st s).draws = s.draws := rfl

@[simp] theorem commitNode_params (s : State) (tx : Tx) (pos : RenderPos) (S : Stack) (nd : Node) (d : StackData) (u : Nat) : (commitNode s tx pos S nd d u).params = s.params := rfl
@[simp] theorem commitNode_ch (s : State) (tx : Tx) (pos : RenderPos) (S : Stack) (nd : Node) (d : StackData) (u : Nat) : (commitNode s tx pos S nd d u).ch = s.ch.set pos.c (some { nodes := S.nodes.set pos.k nd, data := d }) := rfl
@[simp] theorem commitNode_pitch (s : State) (tx : Tx) (pos : RenderPos) (S : Stack) (nd : Node) (d : StackData) (u : Nat) : (commitNode s tx pos S nd d u).pitch = s.pitch := rfl
@[simp] theorem commitNode_held (s : State) (tx : Tx) (pos : RenderPos) (S : Stack) (nd : Node) (d : StackData) (u : Nat) : (commitNode s tx pos S nd d u).held = s.held := rfl
@[simp] theorem commitNode_heldCount (s : State) (tx : Tx) (pos : RenderPos) (S : Stack) (nd : Node) (d : StackData) (u : Nat) : (commitNode s tx pos S nd d u).heldCount = s.heldCount := rfl
@[simp] theorem commitNode_status (s : State) (tx : Tx) (pos : RenderPos) (S : Stack) (nd : Node) (d : StackData) (u : Nat) : (commitNode s tx pos S nd d u).status = s.status := rfl
@[simp] theorem commitNode_cmdq (s : State) (tx : Tx) (pos : RenderPos) (S : Stack) (nd : Node) (d : StackData) (u : Nat) : (commitNode s tx pos S nd d u).cmdq = s.cmdq := rfl
@[simp] theorem commitNode_mirq (s : State) (tx : Tx) (pos : RenderPos) (S : Stack) (nd : Node) (d : StackData) (u : Nat) : (commitNode s tx pos S nd d u).mirq = s.mirq := rfl
@[simp] theorem commitNode_tx (s : State) (tx : Tx) (pos : RenderPos) (S : Stack) (nd : Node) (d : StackData) (u : Nat) : (commitNode s tx pos S nd d u).tx = some { tx with stage := .render { pos with k := pos.k + 1 } } := rfl
@[simp] theorem commitNode_outBuf (s : State) (tx : Tx) (pos : RenderPos) (S : Stack) (nd : Node) (d : StackData) (u : Nat) : (commitNode s tx pos S nd d u).outBuf = s.outBuf := rfl
@[simp] theorem commitNode_result (s : State) (tx : Tx) (pos : RenderPos) (S : Stack) (nd : Node) (d : StackData) (u : Nat) : (commitNode s tx pos S nd d u).result = s.result := rfl
@[simp] theorem commitNode_reply (s : State) (tx : Tx) (pos : RenderPos) (S : Stack) (nd : Node) (d : StackData) (u : Nat) : (commitNode s tx pos S nd d u).reply = s.reply := rfl
@[simp] theorem commitNode_blocks (s : State) (tx : Tx) (pos : RenderPos) (S : Stack) (nd : Node) (d : StackData) (u : Nat) : (commitNode s tx pos S nd d u).blocks = s.blocks := rfl
@[simp] theorem commitNode_turns (s : State) (tx : Tx) (pos : RenderPos) (S : Stack) (nd : Node) (d : StackData) (u : Nat) : (commitNode s tx pos S nd d u).turns = s.turns := rfl
@[simp] theorem commitNode_draws (s : State) (tx : Tx) (pos : RenderPos) (S : Stack) (nd : Node) (d : StackData) (u : Nat) : (commitNode s tx pos S nd d u).draws = s.draws + u := rfl

@[simp] theorem raiseStatus_params (e : StatusEvent) (s : State) : (raiseStatus e s).params = s.params := rfl
@[simp] theorem raiseStatus_ch (e : StatusEvent) (s : State) : (raiseStatus e s).ch = s.ch := rfl
@[simp] theorem raiseStatus_pitch (e : StatusEvent) (s : State) : (raiseStatus e s).pitch = s.pitch := rfl
@[simp] theorem raiseStatus_held (e : StatusEvent) (s : State) : (raiseStatus e s).held = s.held := rfl
@[simp] theorem raiseStatus_heldCount (e : StatusEvent) (s : State) : (raiseStatus e s).heldCount = s.heldCount := rfl
@[simp] theorem raiseStatus_status (e : StatusEvent) (s : State) : (raiseStatus e s).status = s.status ||| statusBit e := rfl
@[simp] theorem raiseStatus_cmdq (e : StatusEvent) (s : State) : (raiseStatus e s).cmdq = s.cmdq := rfl
@[simp] theorem raiseStatus_mirq (e : StatusEvent) (s : State) : (raiseStatus e s).mirq = s.mirq := rfl
@[simp] theorem raiseStatus_tx (e : StatusEvent) (s : State) : (raiseStatus e s).tx = s.tx := rfl
@[simp] theorem raiseStatus_outBuf (e : StatusEvent) (s : State) : (raiseStatus e s).outBuf = s.outBuf := rfl
@[simp] theorem raiseStatus_result (e : StatusEvent) (s : State) : (raiseStatus e s).result = s.result := rfl
@[simp] theorem raiseStatus_reply (e : StatusEvent) (s : State) : (raiseStatus e s).reply = s.reply := rfl
@[simp] theorem raiseStatus_blocks (e : StatusEvent) (s : State) : (raiseStatus e s).blocks = s.blocks := rfl
@[simp] theorem raiseStatus_turns (e : StatusEvent) (s : State) : (raiseStatus e s).turns = s.turns := rfl
@[simp] theorem raiseStatus_draws (e : StatusEvent) (s : State) : (raiseStatus e s).draws = s.draws := rfl

@[simp] theorem writeStatus_params (w : Word) (s : State) : (writeStatus w s).params = s.params := rfl
@[simp] theorem writeStatus_ch (w : Word) (s : State) : (writeStatus w s).ch = s.ch := rfl
@[simp] theorem writeStatus_pitch (w : Word) (s : State) : (writeStatus w s).pitch = s.pitch := rfl
@[simp] theorem writeStatus_held (w : Word) (s : State) : (writeStatus w s).held = s.held := rfl
@[simp] theorem writeStatus_heldCount (w : Word) (s : State) : (writeStatus w s).heldCount = s.heldCount := rfl
@[simp] theorem writeStatus_status (w : Word) (s : State) : (writeStatus w s).status = s.status &&& ~~~(w &&& 0x00000003#32) := rfl
@[simp] theorem writeStatus_cmdq (w : Word) (s : State) : (writeStatus w s).cmdq = s.cmdq := rfl
@[simp] theorem writeStatus_mirq (w : Word) (s : State) : (writeStatus w s).mirq = s.mirq := rfl
@[simp] theorem writeStatus_tx (w : Word) (s : State) : (writeStatus w s).tx = s.tx := rfl
@[simp] theorem writeStatus_outBuf (w : Word) (s : State) : (writeStatus w s).outBuf = s.outBuf := rfl
@[simp] theorem writeStatus_result (w : Word) (s : State) : (writeStatus w s).result = s.result := rfl
@[simp] theorem writeStatus_reply (w : Word) (s : State) : (writeStatus w s).reply = s.reply := rfl
@[simp] theorem writeStatus_blocks (w : Word) (s : State) : (writeStatus w s).blocks = s.blocks := rfl
@[simp] theorem writeStatus_turns (w : Word) (s : State) : (writeStatus w s).turns = s.turns := rfl
@[simp] theorem writeStatus_draws (w : Word) (s : State) : (writeStatus w s).draws = s.draws := rfl

@[simp] theorem outWrite_params (j : Nat) (v : F32) (s : State) : (outWrite j v s).params = s.params := rfl
@[simp] theorem outWrite_ch (j : Nat) (v : F32) (s : State) : (outWrite j v s).ch = s.ch := rfl
@[simp] theorem outWrite_pitch (j : Nat) (v : F32) (s : State) : (outWrite j v s).pitch = s.pitch := rfl
@[simp] theorem outWrite_held (j : Nat) (v : F32) (s : State) : (outWrite j v s).held = s.held := rfl
@[simp] theorem outWrite_heldCount (j : Nat) (v : F32) (s : State) : (outWrite j v s).heldCount = s.heldCount := rfl
@[simp] theorem outWrite_status (j : Nat) (v : F32) (s : State) : (outWrite j v s).status = s.status := rfl
@[simp] theorem outWrite_cmdq (j : Nat) (v : F32) (s : State) : (outWrite j v s).cmdq = s.cmdq := rfl
@[simp] theorem outWrite_mirq (j : Nat) (v : F32) (s : State) : (outWrite j v s).mirq = s.mirq := rfl
@[simp] theorem outWrite_tx (j : Nat) (v : F32) (s : State) : (outWrite j v s).tx = s.tx := rfl
@[simp] theorem outWrite_outBuf (j : Nat) (v : F32) (s : State) : (outWrite j v s).outBuf = s.outBuf.set j v := rfl
@[simp] theorem outWrite_result (j : Nat) (v : F32) (s : State) : (outWrite j v s).result = s.result := rfl
@[simp] theorem outWrite_reply (j : Nat) (v : F32) (s : State) : (outWrite j v s).reply = s.reply := rfl
@[simp] theorem outWrite_blocks (j : Nat) (v : F32) (s : State) : (outWrite j v s).blocks = s.blocks := rfl
@[simp] theorem outWrite_turns (j : Nat) (v : F32) (s : State) : (outWrite j v s).turns = s.turns := rfl
@[simp] theorem outWrite_draws (j : Nat) (v : F32) (s : State) : (outWrite j v s).draws = s.draws := rfl

@[simp] theorem postEventWrite_params (s : State) : (postEventWrite s).params = s.params := rfl
@[simp] theorem postEventWrite_ch (s : State) : (postEventWrite s).ch = (s.ch.map (Option.map fun S => { S with data := writeGatePitch s.params (gateValue s.heldCount) s.pitch S.data })) := rfl
@[simp] theorem postEventWrite_pitch (s : State) : (postEventWrite s).pitch = s.pitch := rfl
@[simp] theorem postEventWrite_held (s : State) : (postEventWrite s).held = s.held := rfl
@[simp] theorem postEventWrite_heldCount (s : State) : (postEventWrite s).heldCount = s.heldCount := rfl
@[simp] theorem postEventWrite_status (s : State) : (postEventWrite s).status = s.status := rfl
@[simp] theorem postEventWrite_cmdq (s : State) : (postEventWrite s).cmdq = s.cmdq := rfl
@[simp] theorem postEventWrite_mirq (s : State) : (postEventWrite s).mirq = s.mirq := rfl
@[simp] theorem postEventWrite_tx (s : State) : (postEventWrite s).tx = s.tx := rfl
@[simp] theorem postEventWrite_outBuf (s : State) : (postEventWrite s).outBuf = s.outBuf := rfl
@[simp] theorem postEventWrite_result (s : State) : (postEventWrite s).result = s.result := rfl
@[simp] theorem postEventWrite_reply (s : State) : (postEventWrite s).reply = s.reply := rfl
@[simp] theorem postEventWrite_blocks (s : State) : (postEventWrite s).blocks = s.blocks := rfl
@[simp] theorem postEventWrite_turns (s : State) : (postEventWrite s).turns = s.turns := rfl
@[simp] theorem postEventWrite_draws (s : State) : (postEventWrite s).draws = s.draws := rfl

@[simp] theorem retrigger_params (c : Nat) (s : State) : (retrigger c s).params = s.params := by unfold retrigger; split <;> rfl
@[simp] theorem retrigger_pitch (c : Nat) (s : State) : (retrigger c s).pitch = s.pitch := by unfold retrigger; split <;> rfl
@[simp] theorem retrigger_held (c : Nat) (s : State) : (retrigger c s).held = s.held := by unfold retrigger; split <;> rfl
@[simp] theorem retrigger_heldCount (c : Nat) (s : State) : (retrigger c s).heldCount = s.heldCount := by unfold retrigger; split <;> rfl
@[simp] theorem retrigger_status (c : Nat) (s : State) : (retrigger c s).status = s.status := by unfold retrigger; split <;> rfl
@[simp] theorem retrigger_cmdq (c : Nat) (s : State) : (retrigger c s).cmdq = s.cmdq := by unfold retrigger; split <;> rfl
@[simp] theorem retrigger_mirq (c : Nat) (s : State) : (retrigger c s).mirq = s.mirq := by unfold retrigger; split <;> rfl
@[simp] theorem retrigger_tx (c : Nat) (s : State) : (retrigger c s).tx = s.tx := by unfold retrigger; split <;> rfl
@[simp] theorem retrigger_outBuf (c : Nat) (s : State) : (retrigger c s).outBuf = s.outBuf := by unfold retrigger; split <;> rfl
@[simp] theorem retrigger_result (c : Nat) (s : State) : (retrigger c s).result = s.result := by unfold retrigger; split <;> rfl
@[simp] theorem retrigger_reply (c : Nat) (s : State) : (retrigger c s).reply = s.reply := by unfold retrigger; split <;> rfl
@[simp] theorem retrigger_blocks (c : Nat) (s : State) : (retrigger c s).blocks = s.blocks := by unfold retrigger; split <;> rfl
@[simp] theorem retrigger_turns (c : Nat) (s : State) : (retrigger c s).turns = s.turns := by unfold retrigger; split <;> rfl
@[simp] theorem retrigger_draws (c : Nat) (s : State) : (retrigger c s).draws = s.draws := by unfold retrigger; split <;> rfl

@[simp] theorem mirrorPush_params (ev : Word) (s : State) : (mirrorPush ev s).params = s.params := by unfold mirrorPush; split <;> rfl
@[simp] theorem mirrorPush_ch (ev : Word) (s : State) : (mirrorPush ev s).ch = s.ch := by unfold mirrorPush; split <;> rfl
@[simp] theorem mirrorPush_pitch (ev : Word) (s : State) : (mirrorPush ev s).pitch = s.pitch := by unfold mirrorPush; split <;> rfl
@[simp] theorem mirrorPush_held (ev : Word) (s : State) : (mirrorPush ev s).held = s.held := by unfold mirrorPush; split <;> rfl
@[simp] theorem mirrorPush_heldCount (ev : Word) (s : State) : (mirrorPush ev s).heldCount = s.heldCount := by unfold mirrorPush; split <;> rfl
@[simp] theorem mirrorPush_status (ev : Word) (s : State) : (mirrorPush ev s).status = s.status := by unfold mirrorPush; split <;> rfl
@[simp] theorem mirrorPush_cmdq (ev : Word) (s : State) : (mirrorPush ev s).cmdq = s.cmdq := by unfold mirrorPush; split <;> rfl
@[simp] theorem mirrorPush_mirq (ev : Word) (s : State) : (mirrorPush ev s).mirq = (if s.mirq.length < s.params.mirrorCap then s.mirq ++ [ev] else s.mirq) := by unfold mirrorPush; split <;> rfl
@[simp] theorem mirrorPush_tx (ev : Word) (s : State) : (mirrorPush ev s).tx = s.tx := by unfold mirrorPush; split <;> rfl
@[simp] theorem mirrorPush_outBuf (ev : Word) (s : State) : (mirrorPush ev s).outBuf = s.outBuf := by unfold mirrorPush; split <;> rfl
@[simp] theorem mirrorPush_result (ev : Word) (s : State) : (mirrorPush ev s).result = s.result := by unfold mirrorPush; split <;> rfl
@[simp] theorem mirrorPush_reply (ev : Word) (s : State) : (mirrorPush ev s).reply = s.reply := by unfold mirrorPush; split <;> rfl
@[simp] theorem mirrorPush_blocks (ev : Word) (s : State) : (mirrorPush ev s).blocks = s.blocks := by unfold mirrorPush; split <;> rfl
@[simp] theorem mirrorPush_turns (ev : Word) (s : State) : (mirrorPush ev s).turns = s.turns := by unfold mirrorPush; split <;> rfl
@[simp] theorem mirrorPush_draws (ev : Word) (s : State) : (mirrorPush ev s).draws = s.draws := by unfold mirrorPush; split <;> rfl

@[simp] theorem cmdPush_params (m : List Word) (s : State) : (cmdPush m s).params = s.params := by unfold cmdPush; split <;> rfl
@[simp] theorem cmdPush_ch (m : List Word) (s : State) : (cmdPush m s).ch = s.ch := by unfold cmdPush; split <;> rfl
@[simp] theorem cmdPush_pitch (m : List Word) (s : State) : (cmdPush m s).pitch = s.pitch := by unfold cmdPush; split <;> rfl
@[simp] theorem cmdPush_held (m : List Word) (s : State) : (cmdPush m s).held = s.held := by unfold cmdPush; split <;> rfl
@[simp] theorem cmdPush_heldCount (m : List Word) (s : State) : (cmdPush m s).heldCount = s.heldCount := by unfold cmdPush; split <;> rfl
@[simp] theorem cmdPush_status (m : List Word) (s : State) : (cmdPush m s).status = s.status := by unfold cmdPush; split <;> rfl
@[simp] theorem cmdPush_cmdq (m : List Word) (s : State) : (cmdPush m s).cmdq = (if s.cmdq.length < s.params.cmdCap then s.cmdq ++ [m] else s.cmdq) := by unfold cmdPush; split <;> rfl
@[simp] theorem cmdPush_mirq (m : List Word) (s : State) : (cmdPush m s).mirq = s.mirq := by unfold cmdPush; split <;> rfl
@[simp] theorem cmdPush_tx (m : List Word) (s : State) : (cmdPush m s).tx = s.tx := by unfold cmdPush; split <;> rfl
@[simp] theorem cmdPush_outBuf (m : List Word) (s : State) : (cmdPush m s).outBuf = s.outBuf := by unfold cmdPush; split <;> rfl
@[simp] theorem cmdPush_result (m : List Word) (s : State) : (cmdPush m s).result = s.result := by unfold cmdPush; split <;> rfl
@[simp] theorem cmdPush_reply (m : List Word) (s : State) : (cmdPush m s).reply = (if s.cmdq.length < s.params.cmdCap then some .ok else some .full) := by unfold cmdPush; split <;> rfl
@[simp] theorem cmdPush_blocks (m : List Word) (s : State) : (cmdPush m s).blocks = s.blocks := by unfold cmdPush; split <;> rfl
@[simp] theorem cmdPush_turns (m : List Word) (s : State) : (cmdPush m s).turns = s.turns := by unfold cmdPush; split <;> rfl
@[simp] theorem cmdPush_draws (m : List Word) (s : State) : (cmdPush m s).draws = s.draws := by unfold cmdPush; split <;> rfl

@[simp] theorem mirrorPop_params (s : State) : (mirrorPop s).params = s.params := by unfold mirrorPop; split <;> simp_all
@[simp] theorem mirrorPop_ch (s : State) : (mirrorPop s).ch = s.ch := by unfold mirrorPop; split <;> simp_all
@[simp] theorem mirrorPop_pitch (s : State) : (mirrorPop s).pitch = s.pitch := by unfold mirrorPop; split <;> simp_all
@[simp] theorem mirrorPop_held (s : State) : (mirrorPop s).held = s.held := by unfold mirrorPop; split <;> simp_all
@[simp] theorem mirrorPop_heldCount (s : State) : (mirrorPop s).heldCount = s.heldCount := by unfold mirrorPop; split <;> simp_all
@[simp] theorem mirrorPop_status (s : State) : (mirrorPop s).status = s.status := by unfold mirrorPop; split <;> simp_all
@[simp] theorem mirrorPop_cmdq (s : State) : (mirrorPop s).cmdq = s.cmdq := by unfold mirrorPop; split <;> simp_all
@[simp] theorem mirrorPop_mirq (s : State) : (mirrorPop s).mirq = s.mirq.tail := by unfold mirrorPop; split <;> simp_all
@[simp] theorem mirrorPop_tx (s : State) : (mirrorPop s).tx = s.tx := by unfold mirrorPop; split <;> simp_all
@[simp] theorem mirrorPop_outBuf (s : State) : (mirrorPop s).outBuf = s.outBuf := by unfold mirrorPop; split <;> simp_all
@[simp] theorem mirrorPop_result (s : State) : (mirrorPop s).result = s.result := by unfold mirrorPop; split <;> simp_all
@[simp] theorem mirrorPop_blocks (s : State) : (mirrorPop s).blocks = s.blocks := by unfold mirrorPop; split <;> simp_all
@[simp] theorem mirrorPop_turns (s : State) : (mirrorPop s).turns = s.turns := by unfold mirrorPop; split <;> simp_all
@[simp] theorem mirrorPop_draws (s : State) : (mirrorPop s).draws = s.draws := by unfold mirrorPop; split <;> simp_all

@[simp] theorem copyStep_params (tx : Tx) (pos : RenderPos) (S : Stack) (s : State) : (copyStep tx pos S s).params = s.params := rfl
@[simp] theorem copyStep_ch (tx : Tx) (pos : RenderPos) (S : Stack) (s : State) : (copyStep tx pos S s).ch = s.ch := rfl
@[simp] theorem copyStep_pitch (tx : Tx) (pos : RenderPos) (S : Stack) (s : State) : (copyStep tx pos S s).pitch = s.pitch := rfl
@[simp] theorem copyStep_held (tx : Tx) (pos : RenderPos) (S : Stack) (s : State) : (copyStep tx pos S s).held = s.held := rfl
@[simp] theorem copyStep_heldCount (tx : Tx) (pos : RenderPos) (S : Stack) (s : State) : (copyStep tx pos S s).heldCount = s.heldCount := rfl
@[simp] theorem copyStep_status (tx : Tx) (pos : RenderPos) (S : Stack) (s : State) : (copyStep tx pos S s).status = s.status := rfl
@[simp] theorem copyStep_cmdq (tx : Tx) (pos : RenderPos) (S : Stack) (s : State) : (copyStep tx pos S s).cmdq = s.cmdq := rfl
@[simp] theorem copyStep_mirq (tx : Tx) (pos : RenderPos) (S : Stack) (s : State) : (copyStep tx pos S s).mirq = s.mirq := rfl
@[simp] theorem copyStep_outBuf (tx : Tx) (pos : RenderPos) (S : Stack) (s : State) : (copyStep tx pos S s).outBuf = s.outBuf := rfl
@[simp] theorem copyStep_result (tx : Tx) (pos : RenderPos) (S : Stack) (s : State) : (copyStep tx pos S s).result = s.result := rfl
@[simp] theorem copyStep_reply (tx : Tx) (pos : RenderPos) (S : Stack) (s : State) : (copyStep tx pos S s).reply = s.reply := rfl
@[simp] theorem copyStep_blocks (tx : Tx) (pos : RenderPos) (S : Stack) (s : State) : (copyStep tx pos S s).blocks = s.blocks := rfl
@[simp] theorem copyStep_turns (tx : Tx) (pos : RenderPos) (S : Stack) (s : State) : (copyStep tx pos S s).turns = s.turns := rfl
@[simp] theorem copyStep_draws (tx : Tx) (pos : RenderPos) (S : Stack) (s : State) : (copyStep tx pos S s).draws = s.draws := rfl

/-! The start of the render phase and the output copy. -/

@[simp] theorem beginRender_params (tx : Tx) (s : State) : (beginRender tx s).params = s.params := rfl
@[simp] theorem beginRender_ch (tx : Tx) (s : State) : (beginRender tx s).ch = s.ch := rfl
@[simp] theorem beginRender_pitch (tx : Tx) (s : State) : (beginRender tx s).pitch = s.pitch := rfl
@[simp] theorem beginRender_held (tx : Tx) (s : State) : (beginRender tx s).held = s.held := rfl
@[simp] theorem beginRender_heldCount (tx : Tx) (s : State) : (beginRender tx s).heldCount = s.heldCount := rfl
@[simp] theorem beginRender_status (tx : Tx) (s : State) : (beginRender tx s).status = s.status := rfl
@[simp] theorem beginRender_cmdq (tx : Tx) (s : State) : (beginRender tx s).cmdq = s.cmdq := rfl
@[simp] theorem beginRender_mirq (tx : Tx) (s : State) : (beginRender tx s).mirq = s.mirq := rfl
@[simp] theorem beginRender_tx (tx : Tx) (s : State) : (beginRender tx s).tx = some { tx with chout := freshBuffers s.draws tx.len s.activeChannels, stage := .render (channelStart 0 tx.len) } := rfl
@[simp] theorem beginRender_outBuf (tx : Tx) (s : State) : (beginRender tx s).outBuf = s.outBuf := rfl
@[simp] theorem beginRender_result (tx : Tx) (s : State) : (beginRender tx s).result = s.result := rfl
@[simp] theorem beginRender_reply (tx : Tx) (s : State) : (beginRender tx s).reply = s.reply := rfl
@[simp] theorem beginRender_blocks (tx : Tx) (s : State) : (beginRender tx s).blocks = s.blocks := rfl
@[simp] theorem beginRender_turns (tx : Tx) (s : State) : (beginRender tx s).turns = s.turns := rfl
@[simp] theorem beginRender_draws (tx : Tx) (s : State) : (beginRender tx s).draws = s.draws + s.activeChannels.length * tx.len := rfl

end Sys2Proof.Machine
end

