-- ==== Sys2Proof/Laws/Registers.lean ====
section
/-! SUPPORT. Channels and register files: reads after writes, and the form of a register file kept by every operation that writes one. -/

namespace Sys2Proof.Machine

theorem stack_eq_some {s : State} {c : Nat} {S : Stack} : s.stack c = some S ↔ s.ch[c]? = some (some S) := by
  unfold State.stack
  cases h : s.ch[c]? with
  | none => simp
  | some o => cases o <;> simp

theorem stack_eq_none {s : State} {c : Nat} : s.stack c = none ↔ s.ch[c]? = none ∨ s.ch[c]? = some none := by
  unfold State.stack
  cases h : s.ch[c]? with
  | none => simp
  | some o => cases o <;> simp

theorem lt_of_stack {s : State} {c : Nat} {S : Stack} (h : s.stack c = some S) : c < s.ch.length := by
  have h' := stack_eq_some.1 h
  exact (List.getElem?_eq_some_iff.1 h').1

@[simp] theorem stack_setSlot_self {s : State} {c : Nat} (v : Option Stack) (h : c < s.ch.length) :
    (setSlot s c v).stack c = v := by
  simp [State.stack, h]

@[simp] theorem stack_setSlot_ne {s : State} {c k : Nat} (v : Option Stack) (h : k ≠ c) :
    (setSlot s c v).stack k = s.stack k := by
  simp [State.stack, List.getElem?_set_ne (Ne.symm h)]

@[simp] theorem stack_mapActive (f : Stack → Stack) (s : State) (k : Nat) :
    (mapActive f s).stack k = (s.stack k).map f := by
  unfold State.stack
  simp only [mapActive_ch, List.getElem?_map]
  cases s.ch[k]? with
  | none => rfl
  | some o => cases o <;> rfl

theorem stack_modifyChannel (c : Nat) (f : Stack → Stack) (s : State) (k : Nat) :
    (modifyChannel c f s).stack k = if k = c then (s.stack k).map f else s.stack k := by
  unfold State.stack
  simp only [modifyChannel_ch, List.getElem?_modify]
  by_cases h : c = k
  · subst h
    cases s.ch[c]? with
    | none => simp
    | some o => cases o <;> simp
  · simp [h, Ne.symm h]

@[simp] theorem stack_setStage (st : Stage) (s : State) (k : Nat) : (setStage st s).stack k = s.stack k := rfl

@[simp] theorem stack_commitNode_self {s : State} (tx : Tx) (pos : RenderPos) (S : Stack) (nd : Node) (d : StackData) (u : Nat)
    (h : pos.c < s.ch.length) :
    (commitNode s tx pos S nd d u).stack pos.c = some { nodes := S.nodes.set pos.k nd, data := d } := by
  simp [State.stack, h]

@[simp] theorem stack_commitNode_ne {s : State} (tx : Tx) (pos : RenderPos) (S : Stack) (nd : Node) (d : StackData) (u : Nat)
    {k : Nat} (h : k ≠ pos.c) : (commitNode s tx pos S nd d u).stack k = s.stack k := by
  simp [State.stack, List.getElem?_set_ne (Ne.symm h)]

theorem stack_postEventWrite (s : State) (k : Nat) :
    (postEventWrite s).stack k =
      (s.stack k).map fun S => { S with data := writeGatePitch s.params (gateValue s.heldCount) s.pitch S.data } :=
  stack_mapActive _ _ _

/-! Register files. -/

@[simp] theorem writeAudio_creg (d : StackData) (k : Nat) (v : Samples) : (d.writeAudio k v).creg = d.creg := rfl
@[simp] theorem writeControl_areg (d : StackData) (k : Nat) (v : F32) : (d.writeControl k v).areg = d.areg := rfl
@[simp] theorem writeAudio_areg (d : StackData) (k : Nat) (v : Samples) : (d.writeAudio k v).areg = d.areg.set k v := rfl
@[simp] theorem writeControl_creg (d : StackData) (k : Nat) (v : F32) : (d.writeControl k v).creg = d.creg.set k v := rfl

theorem readAudio_writeAudio {d : StackData} {k : Nat} (v : Samples) (h : k < d.areg.length) :
    (d.writeAudio k v).readAudio k = v := by
  simp [StackData.readAudio, h]

theorem readAudio_writeAudio_ne (d : StackData) {k r : Nat} (v : Samples) (h : r ≠ k) :
    (d.writeAudio k v).readAudio r = d.readAudio r := by
  simp [StackData.readAudio, List.getElem?_set_ne (Ne.symm h)]

theorem readControl_writeControl {d : StackData} {k : Nat} (v : F32) (h : k < d.creg.length) :
    (d.writeControl k v).readControl k = v := by
  simp [StackData.readControl, h]

theorem readControl_writeControl_ne (d : StackData) {k r : Nat} (v : F32) (h : r ≠ k) :
    (d.writeControl k v).readControl r = d.readControl r := by
  simp [StackData.readControl, List.getElem?_set_ne (Ne.symm h)]

/-- The two files are disjoint (R31). -/
@[simp] theorem readControl_writeAudio (d : StackData) (k r : Nat) (v : Samples) :
    (d.writeAudio k v).readControl r = d.readControl r := rfl

@[simp] theorem readAudio_writeControl (d : StackData) (k r : Nat) (v : F32) :
    (d.writeControl k v).readAudio r = d.readAudio r := rfl

theorem wf_iff (p : Params) (d : StackData) : d.wf p = true ↔ d.areg.length = p.na ∧ d.creg.length = p.nc := by
  simp [StackData.wf]

@[simp] theorem zeroStackData_wf (p : Params) : (zeroStackData p).wf p = true := by
  simp [wf_iff, zeroStackData]

@[simp] theorem writeAudio_wf (p : Params) (d : StackData) (k : Nat) (v : Samples) : (d.writeAudio k v).wf p = d.wf p := by
  rw [Bool.eq_iff_iff]; simp [wf_iff]

@[simp] theorem writeControl_wf (p : Params) (d : StackData) (k : Nat) (v : F32) : (d.writeControl k v).wf p = d.wf p := by
  rw [Bool.eq_iff_iff]; simp [wf_iff]

@[simp] theorem writeGatePitch_wf (p q : Params) (g x : F32) (d : StackData) : (writeGatePitch p g x d).wf q = d.wf q := by
  simp [writeGatePitch]

@[simp] theorem clearTime_wf (p q : Params) (d : StackData) : (clearTime p d).wf q = d.wf q := by
  unfold clearTime; split <;> simp

@[simp] theorem portWrite_wf (p : Params) (P : Port) (d : StackData) : (P.write d).wf p = d.wf p := by
  cases P <;> simp [Port.write]

end Sys2Proof.Machine
end

