-- ==== Sys2Proof/Laws/Ports.lean ====
section
/-! SUPPORT. Ports and the kernel loop: what the uniform index, the multiplexer and a chunk of a kernel leave in a port. -/

namespace Sys2Proof.Machine

@[simp] theorem put_spec (P : Port) (i : Nat) (v : F32) : (P.put i v).spec = P.spec := by cases P <;> rfl
@[simp] theorem put_isAudio (P : Port) (i : Nat) (v : F32) : (P.put i v).isAudio = P.isAudio := by cases P <;> rfl
@[simp] theorem read_spec (P : Port) (d : StackData) : (P.read d).spec = P.spec := by cases P <;> rfl
@[simp] theorem read_isAudio (P : Port) (d : StackData) : (P.read d).isAudio = P.isAudio := by cases P <;> rfl
@[simp] theorem installPort_spec (q : PortSpec) : (installPort q).spec = q := by cases q <;> rfl

/-- The kind of a port is that of its descriptor. -/
theorem isAudio_of_spec_eq {P Q : Port} (h : P.spec = Q.spec) : P.isAudio = Q.isAudio := by
  cases P <;> cases Q <;> simp_all [Port.spec, Port.isAudio]

theorem get_control {P : Port} (h : P.isAudio = false) (i j : Nat) : P.get i = P.get j := by
  cases P <;> simp_all [Port.isAudio, Port.get]

theorem put_get_control {P : Port} (h : P.isAudio = false) (i j : Nat) (v : F32) : (P.put i v).get j = v := by
  cases P <;> simp_all [Port.isAudio, Port.get, Port.put]

theorem samples_get_set (w : Samples) {j : Nat} (hj : j < 256) (i : Nat) (v : F32) :
    ((w.setIfInBounds i v)[j]?).getD f0 = if j = i then v else (w[j]?).getD f0 := by
  rw [Vector.getElem?_setIfInBounds]
  by_cases h : i = j
  · subst h; simp [hj]
  · rw [if_neg h, if_neg (Ne.symm h)]

theorem put_get_audio {P : Port} (h : P.isAudio = true) {j : Nat} (hj : j < 256) (i : Nat) (v : F32) :
    (P.put i v).get j = if j = i then v else P.get j := by
  cases P with
  | audio k w => exact samples_get_set w hj i v
  | freeAudio w => exact samples_get_set w hj i v
  | control k x => simp [Port.isAudio] at h
  | const c x => simp [Port.isAudio] at h

/-- A property of the loop state that the body keeps holds after the loop. -/
theorem sampleLoop_induct {σ : Type} {body : Nat → σ → σ} {Q : Nat → σ → Prop} {st : σ} (h0 : Q 0 st)
    (hs : ∀ i x, Q i x → Q (i + 1) (body i x)) (n : Nat) : Q n (sampleLoop body n st) := by
  induction n with
  | zero => exact h0
  | succ n ih => exact hs n _ ih

/-- A port written once at every sample of a chunk holds the chunk's results. -/
theorem chunkOutput_step {n : Nat} {f : Nat → F32} {old new : Port} (h : ChunkOutput n f old new) (v : F32) (hv : v = f n) :
    ChunkOutput (n + 1) f old (new.put n v) := by
  obtain ⟨hs, ha, hc⟩ := h
  have hk := isAudio_of_spec_eq hs
  refine ⟨by simp [hs], fun h i hi => ?_, fun h i => ?_⟩
  · rw [put_get_audio (hk.trans h) hi, ha h i hi]
    rcases Nat.lt_trichotomy i n with hl | he | hg
    · simp [hl, Nat.lt_succ_of_lt hl, Nat.ne_of_lt hl]
    · simp [he, hv]
    · simp [Nat.not_lt_of_gt hg, Nat.ne_of_gt hg]
      omega
  · simp [put_get_control (hk.trans h), hv]

theorem chunkOutput_zero (f : Nat → F32) (P : Port) : ChunkOutput 0 f P P :=
  ⟨rfl, fun _ _ _ => by simp, fun _ _ => by simp⟩

end Sys2Proof.Machine
end

