-- ==== Sys2Proof/Laws/Exec.lean ====
section
/-! SUPPORT. What each meaning can answer, said once: a node meaning answers next exactly at its own render position, an event or a command always does. -/

namespace Sys2Proof.Machine

theorem nodeFor_eq_some {s : State} {d : NodeDesc} {x : NodeCtx} :
    s.nodeFor d = some x ↔ s.nodeAt = some x ∧ x.node.desc = d := by
  unfold State.nodeFor
  cases h : s.nodeAt with
  | none => simp
  | some y =>
    by_cases hd : y.node.desc = d
    · simp only [hd, if_true, Option.some.injEq]
      exact ⟨fun e => ⟨e, e ▸ hd⟩, fun e => e.1⟩
    · simp only [hd, if_false, Option.some.injEq]
      exact ⟨fun e => by simp at e, fun e => absurd (e.1 ▸ e.2) hd⟩

/-- What it takes for a node to be at the render position (R44). -/
theorem nodeAt_eq_some {s : State} {x : NodeCtx} :
    s.nodeAt = some x ↔
      s.tx = some x.tx ∧ x.tx.stage = .render x.pos ∧ s.stack x.pos.c = some x.stack ∧ x.stack.nodes[x.pos.k]? = some x.node := by
  obtain ⟨tx, pos, S, nd⟩ := x
  unfold State.nodeAt
  cases htx : s.tx with
  | none => simp
  | some tx' =>
    simp only [Option.some.injEq]
    cases hst : tx'.stage with
    | render pos' =>
      cases hS : s.stack pos'.c with
      | none =>
        simp only [hS]
        constructor
        · intro h; simp at h
        · rintro ⟨rfl, h2, h3, -⟩
          rw [hst] at h2
          obtain rfl := Stage.render.inj h2
          simp [hS] at h3
      | some S' =>
        simp only [hS]
        constructor
        · intro h
          obtain ⟨nd', h1, h2⟩ := Option.map_eq_some_iff.1 h
          simp only [NodeCtx.mk.injEq] at h2
          obtain ⟨rfl, rfl, rfl, rfl⟩ := h2
          exact ⟨rfl, hst, hS, h1⟩
        · rintro ⟨rfl, h2, h3, h4⟩
          rw [hst] at h2
          obtain rfl := Stage.render.inj h2
          rw [hS] at h3
          obtain rfl := Option.some.inj h3
          simp [h4]
    | drain => simp only [reduceCtorEq, false_iff]; rintro ⟨rfl, h2, -⟩; simp [hst] at h2
    | apply m => simp only [reduceCtorEq, false_iff]; rintro ⟨rfl, h2, -⟩; simp [hst] at h2
    | midi => simp only [reduceCtorEq, false_iff]; rintro ⟨rfl, h2, -⟩; simp [hst] at h2
    | output j => simp only [reduceCtorEq, false_iff]; rintro ⟨rfl, h2, -⟩; simp [hst] at h2

section
variable {s : State} {tx : Tx} {pos : RenderPos} {S : Stack}

theorem execAbs_at {pi po : Port} (h : s.nodeAt = some ⟨tx, pos, S, .abs pi po⟩) :
    exec (.abs pi.spec po.spec) s =
      .next (commitNode s tx pos S (.abs (pi.read S.data) (absKernel pos.n (pi.read S.data) po))
        ((absKernel pos.n (pi.read S.data) po).write S.data) 0) := by
  have h' : s.nodeFor (.abs pi.spec po.spec) = some ⟨tx, pos, S, .abs pi po⟩ := nodeFor_eq_some.2 ⟨h, rfl⟩
  simp [exec, execAbs, h']

theorem execAdd_at {pa pb po : Port} (h : s.nodeAt = some ⟨tx, pos, S, .add pa pb po⟩) :
    exec (.add pa.spec pb.spec po.spec) s =
      .next (commitNode s tx pos S
        (.add (pa.read S.data) (pb.read S.data) (addKernel pos.n s.draws (pa.read S.data) (pb.read S.data) po))
        ((addKernel pos.n s.draws (pa.read S.data) (pb.read S.data) po).write S.data) pos.n) := by
  have h' : s.nodeFor (.add pa.spec pb.spec po.spec) = some ⟨tx, pos, S, .add pa pb po⟩ := nodeFor_eq_some.2 ⟨h, rfl⟩
  simp [exec, execAdd, h']

theorem execMul_at {pa pb po : Port} (h : s.nodeAt = some ⟨tx, pos, S, .mul pa pb po⟩) :
    exec (.mul pa.spec pb.spec po.spec) s =
      .next (commitNode s tx pos S
        (.mul (pa.read S.data) (pb.read S.data) (mulKernel pos.n s.draws (pa.read S.data) (pb.read S.data) po))
        ((mulKernel pos.n s.draws (pa.read S.data) (pb.read S.data) po).write S.data) pos.n) := by
  have h' : s.nodeFor (.mul pa.spec pb.spec po.spec) = some ⟨tx, pos, S, .mul pa pb po⟩ := nodeFor_eq_some.2 ⟨h, rfl⟩
  simp [exec, execMul, h']

theorem execOsc_at {pf pw pq po : Port} {phase : F32} (h : s.nodeAt = some ⟨tx, pos, S, .osc pf pw pq po phase⟩) :
    exec (.osc pf.spec pw.spec pq.spec po.spec) s =
      (let st := oscKernel s.params (u32ToF32 tx.rate) pos.n s.draws (pf.read S.data) (pw.read S.data) (pq.read S.data) ⟨po, phase⟩
       .next (commitNode s tx pos S (.osc (pf.read S.data) (pw.read S.data) (pq.read S.data) st.output st.phase)
        (st.output.write S.data) (6 * pos.n))) := by
  have h' : s.nodeFor (.osc pf.spec pw.spec pq.spec po.spec) = some ⟨tx, pos, S, .osc pf pw pq po phase⟩ :=
    nodeFor_eq_some.2 ⟨h, rfl⟩
  simp [exec, execOsc, h']

theorem execAdsr_at {pg pa pd ps pr pt po : Port} {v g : F32}
    (h : s.nodeAt = some ⟨tx, pos, S, .adsr pg pa pd ps pr pt po v g⟩) :
    exec (.adsr pg.spec pa.spec pd.spec ps.spec pr.spec pt.spec po.spec) s =
      (let st := adsrKernel s.params (u32ToF32 tx.rate) pos.n s.draws (pg.read S.data) (pa.read S.data) (pd.read S.data)
        (ps.read S.data) (pr.read S.data) ⟨pt.read S.data, po, v, g⟩
       .next (commitNode s tx pos S
        (.adsr (pg.read S.data) (pa.read S.data) (pd.read S.data) (ps.read S.data) (pr.read S.data) st.time st.output
          st.voltage st.previousGate)
        (st.time.write (st.output.write S.data)) (13 * pos.n))) := by
  have h' : s.nodeFor (.adsr pg.spec pa.spec pd.spec ps.spec pr.spec pt.spec po.spec)
      = some ⟨tx, pos, S, .adsr pg pa pd ps pr pt po v g⟩ := nodeFor_eq_some.2 ⟨h, rfl⟩
  simp [exec, execAdsr, h']

/-- Whatever node is at the render position, its own instruction ends in one `commitNode` that keeps the descriptor and only writes registers through ports. -/
theorem exec_nodeAt {nd : Node} (h : s.nodeAt = some ⟨tx, pos, S, nd⟩) :
    ∃ (nd' : Node) (d : StackData) (u : Nat), exec nd.desc.toInstr s = .next (commitNode s tx pos S nd' d u) ∧
      (∀ p, d.wf p = S.data.wf p) := by
  cases nd with
  | abs i o => exact ⟨_, _, _, execAbs_at h, by simp⟩
  | add a b o => exact ⟨_, _, _, execAdd_at h, by simp⟩
  | adsr g a d s r t o v x => exact ⟨_, _, _, execAdsr_at h, by simp⟩
  | mul a b o => exact ⟨_, _, _, execMul_at h, by simp⟩
  | osc f w q o ph => exact ⟨_, _, _, execOsc_at h, by simp⟩

end

/-- Every event completes (R165, R221). -/
theorem exec_midi_next (i : Instr) (s : State) (h : i.family = .midi) : ∃ t, exec i s = .next t := by
  cases i <;> first | (simp [Instr.family] at h; done) | exact ⟨_, rfl⟩

/-- Every decoded command completes (R221). -/
theorem exec_command_next (i : Instr) (s : State) (h : i.family = .command) : ∃ t, exec i s = .next t := by
  cases i <;> first | (simp [Instr.family] at h; done) | exact ⟨_, rfl⟩

end Sys2Proof.Machine
end

