-- ==== Sys2Proof/Laws/Float.lean ====
section
/-! SUPPORT. binary32: the sign and magnitude of a packed value, and that a NaN draw is a NaN (R15). -/

namespace Sys2Proof.Machine

theorem roundUnits_le (num den : Nat) : roundUnits num den ≤ 0x7F800000 := by
  simp only [roundUnits]; exact Nat.min_le_right _ _

theorem pack_toNat {neg : Bool} {m : Nat} (h : m < 2 ^ 31) : (pack neg m).toNat = (if neg then 2 ^ 31 else 0) + m := by
  unfold pack
  rw [BitVec.toNat_ofNat, Nat.mod_eq_of_lt]
  cases neg <;> simp <;> omega

theorem magBits_pack {neg : Bool} {m : Nat} (h : m < 2 ^ 31) : magBits (pack neg m) = m := by
  unfold magBits
  rw [pack_toNat h]
  cases neg
  · simpa using Nat.mod_eq_of_lt h
  · simp only [if_true, Nat.add_mod_left]; exact Nat.mod_eq_of_lt h

theorem isNeg_pack {neg : Bool} {m : Nat} (h : m < 2 ^ 31) : isNeg (pack neg m) = neg := by
  unfold isNeg
  rw [pack_toNat h]
  cases neg <;> simp
  omega

/-- A value is its sign and its magnitude bits. -/
theorem pack_isNeg_magBits (x : F32) : pack (isNeg x) (magBits x) = x := by
  apply BitVec.eq_of_toNat_eq
  have hm : magBits x < 2 ^ 31 := Nat.mod_lt _ (by decide)
  have hx := x.isLt
  rw [pack_toNat hm]
  by_cases h : 2 ^ 31 ≤ x.toNat
  · simp only [isNeg, h, decide_true, if_true, magBits]
    omega
  · simp only [isNeg, h, decide_false, magBits, Bool.false_eq_true, if_false]
    omega

/-- Every draw is a NaN (R15). -/
theorem isNaN_nan (d : Nat) : isNaN (nan d) = true := by
  unfold isNaN nan
  rw [magBits_pack]
  · simp only [decide_eq_true_eq]
    exact Nat.lt_add_of_pos_right (Nat.lt_of_lt_of_le Nat.zero_lt_one (Nat.le_max_left 1 _))
  · have := Nat.mod_lt (Config.freeNaN d).toNat (show 0 < 2 ^ 23 by decide)
    omega

/-- A sum with a NaN second operand is a NaN. -/
theorem isNaN_fadd_right {b : F32} (h : isNaN b = true) (d : Nat) (a : F32) : isNaN (fadd d a b) = true := by
  simp [fadd, h, isNaN_nan]

/-- What is packed from a magnitude up to `∞` is no NaN. -/
theorem isNaN_pack {neg : Bool} {m : Nat} (h : m ≤ 0x7F800000) : isNaN (pack neg m) = false := by
  unfold isNaN
  rw [magBits_pack (Nat.lt_of_le_of_lt h (by decide))]
  simpa using h

/-- A result that was rounded is no NaN. -/
theorem isNaN_pack_roundUnits (neg : Bool) (num den : Nat) : isNaN (pack neg (roundUnits num den)) = false :=
  isNaN_pack (roundUnits_le num den)

/-- No comparison with a NaN holds (R14). -/
theorem flt_nan_left {a : F32} (h : isNaN a = true) (b : F32) : flt a b = false := by simp [flt, h]
theorem flt_nan_right {b : F32} (h : isNaN b = true) (a : F32) : flt a b = false := by simp [flt, h]
theorem feq_nan_left {a : F32} (h : isNaN a = true) (b : F32) : feq a b = false := by simp [feq, h]

end Sys2Proof.Machine
end

