-- ==== Sys2Proof/Laws/PerInstr.lean ====
section
/-! SUPPORT. Statements made instruction by instruction. `EncodedLength`: how many words an instruction takes (R90, R97, R104), as the opcode table's "words" column has it. -/

namespace Sys2Proof.Laws.EncodedLength

/-- The shortest and the longest encoding of a node's kind: `1 + P` and `1 + 2 P` words (R90). -/
def bounds (lo hi : Nat) (i : Instr) : Prop := lo ≤ (encode i).length ∧ (encode i).length ≤ hi

/-- The number of words of each instruction. -/
def Statement : Instr → Prop
  | i@(.abs _ _) => bounds 3 5 i
  | i@(.add _ _ _) => bounds 4 7 i
  | i@(.adsr _ _ _ _ _ _ _) => bounds 8 15 i
  | i@(.mul _ _ _) => bounds 4 7 i
  | i@(.osc _ _ _ _) => bounds 5 9 i
  | i@(.noteon _ _ _) => bounds 1 1 i
  | i@(.noteoff _ _ _) => bounds 1 1 i
  | i@(.reset _ _ _) => bounds 1 1 i
  | i@(.other _) => bounds 1 1 i
  | i@(.setch _ ds) => bounds (1 + 3 * ds.length) (1 + 15 * ds.length) i
  | i@(.replace _ ds) => bounds (1 + 3 * ds.length) (1 + 15 * ds.length) i
  | i@(.rmch _) => bounds 1 1 i
  | i@.resetdata => bounds 1 1 i
  | i@(.addnode _ _ payload) => bounds (1 + payload.length) (1 + payload.length) i

theorem abs (i o : PortSpec) : Statement (.abs i o) := length_encodeNode (.abs i o)
theorem add (a b o : PortSpec) : Statement (.add a b o) := length_encodeNode (.add a b o)
theorem adsr (g a d s r t o : PortSpec) : Statement (.adsr g a d s r t o) := length_encodeNode (.adsr g a d s r t o)
theorem mul (a b o : PortSpec) : Statement (.mul a b o) := length_encodeNode (.mul a b o)
theorem osc (f w q o : PortSpec) : Statement (.osc f w q o) := length_encodeNode (.osc f w q o)
theorem noteon (c : BitVec 4) (n v : BitVec 7) : Statement (.noteon c n v) := ⟨Nat.le_refl 1, Nat.le_refl 1⟩
theorem noteoff (c : BitVec 4) (n v : BitVec 7) : Statement (.noteoff c n v) := ⟨Nat.le_refl 1, Nat.le_refl 1⟩
theorem reset (c : BitVec 4) (n v : BitVec 7) : Statement (.reset c n v) := ⟨Nat.le_refl 1, Nat.le_refl 1⟩
theorem other (w : Word) : Statement (.other w) := ⟨Nat.le_refl 1, Nat.le_refl 1⟩

theorem nodes_length (ds : List NodeDesc) :
    3 * ds.length ≤ (ds.flatMap encodeNode).length ∧ (ds.flatMap encodeNode).length ≤ 15 * ds.length := by
  induction ds with
  | nil => simp
  | cons d ds ih =>
    have h := length_encodeNode d
    have hp : 2 ≤ d.ports.length ∧ d.ports.length ≤ 7 := by cases d <;> simp [NodeDesc.ports]
    simp only [List.flatMap_cons, List.length_append, List.length_cons]
    omega

theorem setch (c : BitVec 8) (ds : List NodeDesc) : Statement (.setch c ds) := by
  have := nodes_length ds
  simp only [Statement, bounds, encode, List.length_cons]
  omega

theorem replace (c : BitVec 8) (ds : List NodeDesc) : Statement (.replace c ds) := by
  have := nodes_length ds
  simp only [Statement, bounds, encode, List.length_cons]
  omega

theorem rmch (c : BitVec 8) : Statement (.rmch c) := ⟨Nat.le_refl 1, Nat.le_refl 1⟩
theorem resetdata : Statement .resetdata := ⟨Nat.le_refl 1, Nat.le_refl 1⟩
theorem addnode (c n : BitVec 8) (payload : List Word) : Statement (.addnode c n payload) := by
  simp only [Statement, bounds, encode, List.length_cons]
  omega

end Sys2Proof.Laws.EncodedLength
end

