-- ==== Sys2Proof/Laws/Render.lean ====
section
/-! SUPPORT. Render buffers (R75, R150) and the phase wrap as an argument (R129): what the fresh buffers, the output copy and the wrap table do. -/

namespace Sys2Proof.Machine

@[simp] theorem freshBuffers_channels (d len : Nat) (cs : List Nat) : (freshBuffers d len cs).map Prod.fst = cs := by
  simp [freshBuffers, Function.comp_def, List.zipIdx_map_fst]

theorem freshBuffers_length {d len : Nat} {cs : List Nat} {e : Nat × List F32} (h : e ∈ freshBuffers d len cs) : e.2.length = len := by
  obtain ⟨x, -, rfl⟩ := List.mem_map.1 h
  simp

@[simp] theorem copyInto_length (b : Nat) (xs ys : List F32) : (copyInto b xs ys).length = ys.length := by simp [copyInto]

/-- Sample `j` of a buffer after the output copy of `xs` at offset `b` (R150). -/
theorem copyInto_getElem? (b : Nat) (xs : List F32) {ys : List F32} {j : Nat} (hj : j < ys.length) :
    (copyInto b xs ys)[j]? = if b ≤ j ∧ j < b + xs.length then xs[j - b]? else ys[j]? := by
  simp only [copyInto, List.getElem?_mapIdx, List.getElem?_eq_getElem hj, Option.map_some]
  by_cases h1 : j < b
  · rw [if_pos h1, if_neg (by omega)]
  · rw [if_neg h1]
    by_cases h2 : j < b + xs.length
    · rw [if_pos ⟨by omega, h2⟩, List.getElem?_eq_getElem (by omega)]; rfl
    · rw [if_neg (by omega), List.getElem?_eq_none (by omega)]; rfl

@[simp] theorem choutCopy_channels (c b : Nat) (xs : List F32) (bufs : List (Nat × List F32)) :
    (choutCopy c b xs bufs).map Prod.fst = bufs.map Prod.fst := by
  simp only [choutCopy, List.map_map]
  congr 1
  funext e
  simp only [Function.comp_apply]
  split <;> rfl

/-- The output copy keeps the length of every buffer. -/
theorem choutCopy_length {c b len : Nat} {xs : List F32} {bufs : List (Nat × List F32)} (h : ∀ e ∈ bufs, e.2.length = len) :
    ∀ e ∈ choutCopy c b xs bufs, e.2.length = len := by
  intro e he
  obtain ⟨x, hx, rfl⟩ := List.mem_map.1 he
  split <;> simp [h x hx]

/-- The values of a width can be listed. -/
theorem bitVec_listed (w : Nat) : ∃ l : List (BitVec w), ∀ x, x ∈ l :=
  ⟨(List.finRange (2 ^ w)).map BitVec.ofFin, fun x => List.mem_map.2 ⟨x.toFin, List.mem_finRange _, rfl⟩⟩

theorem lookup_graph (f : F32 → F32) {l : List F32} {x : F32} (h : x ∈ l) : (l.map fun y => (y, f y)).lookup x = some (f x) := by
  induction l with
  | nil => exact absurd h List.not_mem_nil
  | cons y l ih =>
    simp only [List.map_cons, List.lookup_cons]
    by_cases hx : x = y
    · subst hx; simp
    · rw [beq_false_of_ne hx]
      exact ih ((List.mem_cons.1 h).resolve_left hx)

/-- Every function on binary32 values is a table of `OSC_WRAP`: the argument of R9 can be any function, a NaN result being drawn (R15). -/
theorem oscWrap_table_complete (f : F32 → F32) : ∃ entries : List (F32 × F32), ∀ (p : Params) (d : Nat) (x : F32),
    oscWrap { p with oscWrap := .table entries } d x = if isNaN (f x) then nan d else f x := by
  obtain ⟨l, hl⟩ := bitVec_listed 32
  exact ⟨l.map fun y => (y, f y), fun p d x => by simp only [oscWrap, lookup_graph f (hl x)]⟩

end Sys2Proof.Machine
end

