-- ==== Sys2Proof/Tests/Slice0.lean ====
section
/-! SUPPORT. The model's own tests: the WellFormed smoke test, words written out from the spec's encodings, at most two one-step tests an instruction, and a witness for the hypotheses of every statement. Expected results come from the examples of the rules and from spec/95_test_vectors.md. -/

namespace Sys2Proof.Tests
open Sys2Proof.Machine
set_option Elab.async false

/-! ## Helpers -/

/-- A property of the next state; false where there is none. -/
def nextHas (P : State → Bool) : Host.Outcome State Fault Refusal → Bool
  | .next t => P t
  | .fault _ => false
  | .refused _ => false

/-- The step stops with this refusal. -/
def refusedWith (r : Refusal) : Host.Outcome State Fault Refusal → Bool
  | .refused q => decide (q = r)
  | .next _ => false
  | .fault _ => false

theorem exists_next {P : State → Bool} {o : Host.Outcome State Fault Refusal} (h : nextHas P o = true) :
    ∃ t, o = .next t ∧ P t = true := by
  cases o with
  | next t => exact ⟨t, rfl, h⟩
  | fault r => exact nomatch r
  | refused r => exact absurd h (by simp [nextHas])

/-- An audio register with these first samples and zeros after them. -/
def samples (xs : List F32) : Samples := xs.zipIdx.foldl (fun v e => v.setIfInBounds e.2 e.1) zeroSamples

def p0 : Params := Params.default

/-- The register files of a fresh channel. -/
def fresh : StackData := zeroStackData p0

/-- Channel `c` active with these nodes and registers. -/
def installed (c : Nat) (ds : List NodeDesc) (data : StackData) : State :=
  setSlot State.reset c (some { nodes := ds.map installNode, data := data })

def txAt (len : Nat) (rate : Word) (events : List Word) (stage : Stage) : Tx :=
  { events := events, len := len, rate := rate, chout := [], stage := stage }

/-- A transaction that renders, with a render buffer for channel 0. -/
def txRender (len : Nat) (rate : Word) (pos : RenderPos) : Tx := { txAt len rate [] (.render pos) with chout := [(0, List.replicate len f0)] }

/-- Channel 0 about to run its first node on a chunk of `len` samples. -/
def rendering (ds : List NodeDesc) (data : StackData) (len : Nat) (rate : Word) : State :=
  { installed 0 ds data with outBuf := List.replicate len f0, tx := some (txRender len rate (channelStart 0 len)) }

/-- The event is next in a block of no samples. -/
def withEvent (ev : Word) (s : State) : State := { s with tx := some (txAt 0 48000#32 [ev] .midi) }

/-- The message has just been popped. -/
def withMessage (msg : List Word) (s : State) : State := { s with tx := some (txAt 0 48000#32 [] (.apply msg)) }

/-! ## WellFormed: an ill-formed term for each check (R93, R95, R99, R102, R105) -/

theorem test_wf_audio_register_in_range : (Instr.abs (.audio 15#8) (.audio 0#8)).wf p0 = true ∧ (Instr.abs (.audio 16#8) (.audio 0#8)).wf p0 = false := by decide +kernel
theorem test_wf_control_register_in_range : (Instr.add .freeAudio (.control 15#8) (.audio 0#8)).wf p0 = true ∧ (Instr.add .freeAudio (.control 16#8) (.audio 0#8)).wf p0 = false := by decide +kernel
theorem test_wf_every_port_is_checked : (Instr.mul (.audio 0#8) (.audio 0#8) (.audio 99#8)).wf p0 = false ∧
    (Instr.osc (.control 0#8) (.control 99#8) (.const f0) (.audio 0#8)).wf p0 = false ∧
    (Instr.adsr (.control 1#8) (.const f0) (.const f0) (.const f0) (.const f0) (.control 99#8) (.audio 0#8)).wf p0 = false := by decide +kernel
theorem test_wf_node_count : (Instr.setch 0#8 (List.replicate 16 (.abs .freeAudio .freeAudio))).wf p0 = true ∧
    (Instr.setch 0#8 (List.replicate 17 (.abs .freeAudio .freeAudio))).wf p0 = false := by decide +kernel
theorem test_wf_node_count_fits_its_field : (Instr.replace 0#8 (List.replicate 256 (.abs .freeAudio .freeAudio))).wf { p0 with nodeCap := 300 } = false := by decide +kernel
theorem test_wf_descriptors : (Instr.replace 0#8 [.abs (.audio 16#8) .freeAudio]).wf p0 = false := by decide +kernel
theorem test_wf_other_word : (Instr.other 0x0000000F#32).wf p0 = true ∧ (Instr.other 0x00008000#32).wf p0 = true ∧ (Instr.other 0x00800000#32).wf p0 = true ∧
    (Instr.other 0x00643C00#32).wf p0 = false := by decide +kernel

/-! ## Decoding: words written out from the spec's encodings (R88 to R105, R114) -/

theorem test_decode_abs : decode p0 .node [0x00000000#32, 0x00000102#32, 0x00000002#32] = .ok (.abs (.audio 1#8) (.audio 0#8)) := by decide +kernel
theorem test_decode_add : decode p0 .node [0x00000001#32, 0x00000000#32, 0x00000F03#32, 0x00000002#32] = .ok (.add .freeAudio (.control 15#8) (.audio 0#8)) := by decide +kernel
theorem test_decode_adsr : decode p0 .node [0x00000002#32, 0x00000103#32, 0x00000001#32, 0x3F000000#32, 0x00000403#32, 0x00000503#32, 0x00000603#32, 0x00000203#32, 0x00000002#32] =
    .ok (.adsr (.control 1#8) (.const 0x3F000000#32) (.control 4#8) (.control 5#8) (.control 6#8) (.control 2#8) (.audio 0#8)) := by decide +kernel
theorem test_decode_mul : decode p0 .node [0x00000003#32, 0x00000001#32, 0x7FC00001#32, 0x00000302#32, 0x00000003#32] = .ok (.mul (.const 0x7FC00001#32) (.audio 3#8) (.control 0#8)) := by decide +kernel
theorem test_decode_osc : decode p0 .node [0x00000004#32, 0x00000003#32, 0x00000001#32, 0x00000000#32, 0x00000001#32, 0x3F000000#32, 0x00000002#32] =
    .ok (.osc (.control 0#8) (.const 0x00000000#32) (.const 0x3F000000#32) (.audio 0#8)) := by decide +kernel
/-- VEL 22:16, NOTE 14:8, CHAN 7:4, TYPE 3:0 (R97). -/
theorem test_decode_noteon : decode p0 .midi [0b000000000_1100100_0_1000101_0011_0000#32] = .ok (.noteon 3#4 69#7 100#7) := by decide +kernel
theorem test_decode_noteoff : decode p0 .midi [0b000000000_0000001_0_1111111_1111_0001#32] = .ok (.noteoff 15#4 127#7 1#7) := by decide +kernel
theorem test_decode_reset : decode p0 .midi [0x00000002#32] = .ok (.reset 0#4 0#7 0#7) := by decide +kernel
theorem test_decode_other : decode p0 .midi [0x00000003#32] = .ok (.other 0x00000003#32) ∧ decode p0 .midi [0x0064C500#32] = .ok (.other 0x0064C500#32) ∧
    decode p0 .midi [0x80000001#32] = .ok (.other 0x80000001#32) := by decide +kernel
theorem test_decode_setch : decode p0 .command [0x00020300#32, 0x00000000#32, 0x00000102#32, 0x00000002#32, 0x00000003#32, 0x00000001#32, 0x3F800000#32, 0x00000002#32, 0x00000102#32] =
    .ok (.setch 3#8 [.abs (.audio 1#8) (.audio 0#8), .mul (.const 0x3F800000#32) (.audio 0#8) (.audio 1#8)]) := by decide +kernel
theorem test_decode_replace : decode p0 .command [0x00000101#32] = .ok (.replace 1#8 []) := by decide +kernel
theorem test_decode_rmch : decode p0 .command [0x00001402#32] = .ok (.rmch 20#8) := by decide +kernel
theorem test_decode_resetdata : decode p0 .command [0x00000003#32] = .ok .resetdata := by decide +kernel
theorem test_decode_addnode : decode p0 .command [0x00050304#32, 0xFFFFFFFF#32] = .ok (.addnode 3#8 5#8 [0xFFFFFFFF#32]) := by decide +kernel

theorem test_reject_header_reserved : decode p0 .node [0x00000010#32, 0x102#32, 0x2#32] = .error .hdrReserved ∧
    decode p0 .command [0x00000010#32] = .error .hdrReserved ∧ decode p0 .command [0x01000004#32] = .error .hdrReserved := by decide +kernel
theorem test_reject_unknown_kind_and_op : decode p0 .node [0x00000005#32, 0x102#32, 0x2#32] = .error .kindKnown ∧ decode p0 .command [0x00000005#32] = .error .opKnown := by decide +kernel
theorem test_reject_port_reserved : decode p0 .node [0x0#32, 0x00000106#32, 0x2#32] = .error .portReserved ∧ decode p0 .node [0x0#32, 0x00010102#32, 0x2#32] = .error .portReserved := by decide +kernel
theorem test_reject_unbound_register : decode p0 .node [0x0#32, 0x00000500#32, 0x2#32] = .error .unboundRegZero ∧ decode p0 .node [0x0#32, 0x00000501#32, 0x0#32, 0x2#32] = .error .unboundRegZero := by decide +kernel
theorem test_reject_register_range : decode p0 .node [0x0#32, 0x00001002#32, 0x2#32] = .error .regInRange ∧ decode p0 .node [0x0#32, 0x00001003#32, 0x2#32] = .error .regInRange := by decide +kernel
theorem test_reject_short_descriptor : decode p0 .node [0x0#32, 0x102#32] = .error .lengthShort ∧ decode p0 .command [0x00010000#32, 0x3#32, 0x1#32] = .error .lengthShort := by decide +kernel
theorem test_reject_node_count : decode p0 .command (0x00110000#32 :: (List.replicate 17 [0x0#32, 0x0#32, 0x2#32]).flatten) = .error .nodeCount := by decide +kernel
theorem test_reject_payload : decode p0 .command [0x00010000#32, 0x0#32, 0x102#32, 0x2#32, 0x0#32] = .error .payloadExact ∧ decode p0 .command [0x2#32, 0x0#32] = .error .payloadExact := by decide +kernel
theorem test_reject_header_fields : decode p0 .command [0x00010002#32] = .error .fieldZero ∧ decode p0 .command [0x00000103#32] = .error .fieldZero := by decide +kernel
theorem test_reject_lengths : decode p0 .command [] = .error .emptyMessage ∧ decode p0 .midi [0x0#32, 0x0#32] = .error .eventLength ∧
    decodeBytes p0 .midi [0x00#8, 0x45#8, 0x64#8] = .error .partialWord ∧ decodeBytes p0 .midi [0x00#8, 0x45#8, 0x64#8, 0x00#8] = .ok (.noteon 0#4 69#7 100#7) := by decide +kernel

/-- The table's own words, and that the step runs what they stand for. -/
theorem test_table_word_runs : decodeTableWord 32 0x00000003 = some (.mul .freeAudio .freeAudio .freeAudio) ∧
    nextHas (fun t => decide (t.nodeAt = none)) (step (State.reset.withFetchWord 32 0x00000003)) = true ∧
    decodeTableWord 32 0x00643C00 = some (.noteon 0#4 60#7 100#7) ∧
    nextHas (fun t => decide (t.heldCount = 1)) (step (State.reset.withFetchWord 32 0x00643C00)) = true ∧
    decodeTableWord 32 0x00000304 = some (.addnode 3#8 0#8 []) ∧
    nextHas (fun t => decide (t.status = 2#32)) (step (State.reset.withFetchWord 32 0x00000304)) = true := by decide +kernel

/-- No kind uses more than `PORT_CAP` ports (R9). -/
theorem test_port_capacity (d : NodeDesc) : d.ports.length ≤ Config.portCap := by cases d <;> simp [NodeDesc.ports, Config.portCap]

/-! ## binary32 (R12, R13) -/

theorem test_float_rounding : fadd 0 0x3F800000#32 0x33800000#32 = 0x3F800000#32 ∧ fadd 0 0x3F800001#32 0x33800000#32 = 0x3F800002#32 ∧
    fdiv 0 0x3F800000#32 0x40400000#32 = 0x3EAAAAAB#32 ∧ fmul 0 0x00000001#32 0x3F000000#32 = 0x00000000#32 ∧ u32ToF32 16777217#32 = 0x4B800000#32 := by decide +kernel
theorem test_float_floor_and_fmod : ffloor 0 0xBF000000#32 = 0xBF800000#32 ∧ ffloor 0 0x80000000#32 = 0x80000000#32 ∧
    ffmod 0 0xBFA00000#32 0x3F800000#32 = 0xBE800000#32 ∧ ffmod 0 0x80000000#32 0x3F800000#32 = 0x80000000#32 := by decide +kernel

/-- R12, R13, R118: infinite operands and zero divisors. -/
theorem test_float_infinities : fadd 0 0x7F800000#32 0xFF7FFFFF#32 = 0x7F800000#32 ∧ fsub 0 f1 0x7F800000#32 = 0xFF800000#32 ∧ fmul 0 0xFF800000#32 0x00000001#32 = 0xFF800000#32 ∧
    fdiv 0 f1 0x80000000#32 = 0xFF800000#32 ∧ fdiv 0 fm1 0x7F800000#32 = 0x80000000#32 ∧ fdiv 0 0x7F800000#32 0x80000000#32 = 0xFF800000#32 ∧ ffloor 0 0xFF800000#32 = 0xFF800000#32 := by decide +kernel

/-! ## One step of each instruction -/

/-- R120: `|-0.75| = 0.75`, `|-0.0| = +0.0`. -/
theorem test_abs_clears_the_sign : nextHas (fun t => decide (t.areg 0 0 0 = some 0x3F400000#32 ∧ t.areg 0 0 1 = some 0x00000000#32))
    (step (rendering [.abs (.audio 1#8) (.audio 0#8)] (fresh.writeAudio 1 (samples [0xBF400000#32, 0x80000000#32])) 2 48000#32)) = true := by decide +kernel
/-- R13, R121: a NaN keeps its payload. -/
theorem test_abs_keeps_nan_bits : nextHas (fun t => decide (t.creg 0 4 = some 0x7FC12345#32))
    (step (rendering [.abs (.const 0xFFC12345#32) (.control 4#8)] fresh 1 48000#32)) = true := by decide +kernel
/-- R122: `0.25 + 0.5 = 0.75`; overflow rounds to infinity. -/
theorem test_add_rounds_to_infinity : nextHas (fun t => decide (t.areg 0 0 0 = some 0x3F400000#32 ∧ t.areg 0 0 1 = some 0x7F800000#32))
    (step (rendering [.add (.audio 1#8) (.audio 2#8) (.audio 0#8)]
      ((fresh.writeAudio 1 (samples [0x3E800000#32, 0x7F61B1E6#32])).writeAudio 2 (samples [0x3F000000#32, 0x7F61B1E6#32])) 2 48000#32)) = true := by decide +kernel
/-- R119: a Control input is one scalar for every sample; R39: samples past the chunk keep the port's local value. -/
theorem test_add_mixes_port_kinds : nextHas (fun t => decide (t.areg 0 0 0 = some 0x40000000#32 ∧ t.areg 0 0 1 = some 0x40400000#32 ∧ t.areg 0 0 2 = some 0x00000000#32))
    (step (rendering [.add (.const 0x3F800000#32) (.audio 0#8) (.audio 0#8)] (fresh.writeAudio 0 (samples [0x3F800000#32, 0x40000000#32, 0x40400000#32])) 2 48000#32)) = true := by decide +kernel
/-- R125: `-0.5 * 0.5 = -0.25`; a zero product has the exclusive-or of the signs. -/
theorem test_mul_signs : nextHas (fun t => decide (t.areg 0 0 0 = some 0xBE800000#32 ∧ t.areg 0 0 1 = some 0x80000000#32))
    (step (rendering [.mul (.audio 1#8) (.audio 2#8) (.audio 0#8)]
      ((fresh.writeAudio 1 (samples [0xBF000000#32, 0x80000000#32])).writeAudio 2 (samples [0x3F000000#32, 0x3F800000#32])) 2 48000#32)) = true := by decide +kernel
/-- R119: a Control output holds the last sample's result. -/
theorem test_mul_control_output : nextHas (fun t => decide (t.creg 0 5 = some 0x40C00000#32))
    (step (rendering [.mul (.audio 1#8) (.const 0x40000000#32) (.control 5#8)] (fresh.writeAudio 1 (samples [0x3F800000#32, 0x40000000#32, 0x40400000#32, 0x40800000#32])) 3 48000#32)) = true := by decide +kernel
/-- R128, V-OSC: a 1 Hz saw at 8 Hz; one sample leaves the phase at 0.125. -/
theorem test_osc_saw : nextHas (fun t => decide (t.areg 0 0 0 = some 0xBF800000#32 ∧ t.areg 0 0 1 = some 0xBF400000#32) &&
      match (t.nodes 0) with | some [.osc _ _ _ _ phase] => decide (phase = 0x3E800000#32) | _ => false)
    (step (rendering [.osc (.const 0x3F800000#32) (.const 0x00000000#32) (.const 0x00000000#32) (.audio 0#8)] fresh 2 8#32)) = true := by decide +kernel
/-- R128, V-OSC: a 1 Hz pulse at 4 Hz with width 0.5. -/
theorem test_osc_pulse : nextHas (fun t => decide ((List.range 4).map (t.areg 0 0) = [some 0xBF800000#32, some 0xBF800000#32, some 0xBF800000#32, some 0x3F800000#32]))
    (step (rendering [.osc (.const 0x3F800000#32) (.const 0x3F800000#32) (.const 0x3F000000#32) (.audio 0#8)] fresh 4 4#32)) = true := by decide +kernel
/-- R134: the example's samples 0 to 3 are 0.0, 0.5, 1.0, 0.75; `time` is written back to `creg[2]`. -/
theorem test_adsr_attack_and_decay : nextHas (fun t => decide ((List.range 4).map (t.areg 0 0) = [some 0x00000000#32, some 0x3F000000#32, some 0x3F800000#32, some 0x3F400000#32] ∧ t.creg 0 2 = some 0x3F800000#32))
    (step (rendering [.adsr (.const 0x3F800000#32) (.const 0x3F000000#32) (.const 0x3F000000#32) (.const 0x3F000000#32) (.const 0x3F000000#32) (.control 2#8) (.audio 0#8)] fresh 4 4#32)) = true := by decide +kernel
/-- R137, under the configuration that follows it: a NaN decay while `time < attack` takes the sustain segment, Explicit or Hold. -/
theorem test_adsr_nan_decay_sustains : adsrHigh { p0 with nanDecay := .sustain } 0 0x3E800000#32 0x3F000000#32 0x7FC00000#32 f1 f0 = f1 ∧
    adsrHigh { p0 with nanDecay := .sustain, adsrSustain := .hold } 0 0x3E800000#32 0x3F000000#32 0x7FC00000#32 f1 f0 = f0 := by
  have hd : isNaN 0x7FC00000#32 = true := by decide +kernel
  simp [adsrHigh, hd, flt_nan_right (isNaN_fadd_right hd _ _), p0, Params.default]
/-- R134, log entry 25: otherwise the attack segment, 0.25 / 0.5; a decay that is no NaN is not concerned. -/
theorem test_adsr_nan_decay_in_attack : adsrHigh p0 0 0x3E800000#32 0x3F000000#32 0x7FC00000#32 f1 f0 = 0x3F000000#32 ∧
    adsrHigh { p0 with nanDecay := .sustain } 0 0x3E800000#32 0x3F000000#32 f0 f1 f0 = 0x3F000000#32 := by decide +kernel
/-- R135: the release is floored at +0.0. -/
theorem test_adsr_release_floor : nextHas (fun t => decide (t.areg 0 0 0 = some 0x00000000#32 ∧ t.areg 0 0 1 = some 0x00000000#32))
    (step (rendering [.adsr (.control 1#8) (.const 0x3F000000#32) (.const 0x3F000000#32) (.const 0x3F000000#32) (.const 0x3F000000#32) (.control 2#8) (.audio 0#8)] fresh 2 4#32)) = true := by decide +kernel
/-- R170: the example. -/
theorem test_noteon_example : nextHas (fun t => decide (t.heldCount = 1 ∧ bitIter t.held = [69] ∧ t.pitch = 0x43DC0000#32 ∧ t.mirq = [0x00644500#32] ∧ t.creg 0 1 = some 0x3F800000#32 ∧ t.creg 0 0 = some 0x43DC0000#32))
    (step (withEvent 0x00644500#32 (installed 0 [] fresh))) = true := by decide +kernel
/-- R178, R179, V-MIDI: only the message's channel is retriggered; R168: the counter saturates; R181: a full mirror drops the push. -/
theorem test_noteon_saturates_and_retriggers : nextHas (fun t => decide (t.heldCount = 3 ∧ t.mirq = [0x1#32] ∧ t.creg 0 2 = some 0x3FC00000#32 ∧ t.creg 3 2 = some 0x00000000#32 ∧ t.creg 3 0 = t.creg 0 0))
    (step (withEvent 0x00643C30#32 { (setSlot (installed 0 [] (fresh.writeControl 2 0x3FC00000#32)) 3 (some { nodes := [], data := fresh.writeControl 2 0x3FC00000#32 })) with
      params := { p0 with heldW := 2, mirrorCap := 1 }, heldCount := 3, mirq := [0x1#32] })) = true := by decide +kernel
/-- R172: the counter goes down, the pitch stays. -/
theorem test_noteoff_keeps_the_pitch : nextHas (fun t => decide (t.heldCount = 1 ∧ bitIter t.held = [64] ∧ t.pitch = 0x43DC0000#32 ∧ t.creg 0 1 = some 0x3F800000#32 ∧ t.creg 0 0 = some 0x43DC0000#32))
    (step (withEvent 0x00003C01#32 { installed 0 [] fresh with heldCount := 2, held := bitSet (bitSet 0#256 60#8) 64#8, pitch := 0x43DC0000#32 })) = true := by decide +kernel
/-- R168: the floor at 0. -/
theorem test_noteoff_floor : nextHas (fun t => decide (t.heldCount = 0 ∧ t.creg 0 1 = some 0x00000000#32))
    (step (withEvent 0x00004501#32 (installed 0 [] (fresh.writeControl 1 0x3F800000#32)))) = true := by decide +kernel
/-- R174. -/
theorem test_reset_releases_every_note : nextHas (fun t => decide (t.heldCount = 0 ∧ bitIter t.held = [] ∧ t.pitch = 0x43DC0000#32 ∧ t.creg 0 1 = some 0x00000000#32))
    (step (withEvent 0x00000002#32 { installed 0 [] (fresh.writeControl 1 0x3F800000#32) with heldCount := 2, held := bitSet 0#256 60#8, pitch := 0x43DC0000#32 })) = true := by decide +kernel
/-- R175: an Other event rewrites gate and pitch, and without `OTHER_WRITES` nothing. -/
theorem test_other_rewrites_gate_and_pitch : nextHas (fun t => decide (t.creg 0 1 = some 0x3F800000#32 ∧ t.creg 0 0 = some 0x43DC0000#32 ∧ t.heldCount = 1))
    (step (withEvent 0x0000000F#32 { installed 0 [] fresh with heldCount := 1, pitch := 0x43DC0000#32 })) = true := by decide +kernel
theorem test_other_without_writes : nextHas (fun t => decide (t.creg 0 1 = some 0x00000000#32))
    (step (withEvent 0x0064C500#32 { installed 0 [] fresh with heldCount := 1, params := { p0 with otherWrites := false } })) = true := by decide +kernel
/-- R190, R191: an active slot is replaced whole, registers at +0.0. -/
theorem test_setch_replaces_whole : nextHas (fun t => decide ((t.nodes 0).map (List.map Node.desc) = some [.abs (.audio 1#8) (.audio 0#8)] ∧ t.creg 0 0 = some 0x00000000#32 ∧ t.status = 0#32))
    (step (withMessage [0x00010000#32, 0x0#32, 0x102#32, 0x2#32] (installed 0 [] (fresh.writeControl 0 0x3F800000#32)))) = true := by decide +kernel
/-- R187: channel 16 of 16 is ignored. -/
theorem test_setch_out_of_range : nextHas (fun t => decide (t.ch = State.reset.ch ∧ t.status = 0#32)) (step (withMessage [0x00001000#32] State.reset)) = true := by decide +kernel
/-- R192: the register file is kept; R193: an empty slot stays empty. -/
theorem test_replace_keeps_registers : nextHas (fun t => decide ((t.nodes 0).map (List.map Node.desc) = some [.abs (.audio 1#8) (.audio 0#8)] ∧ t.creg 0 0 = some 0x3F800000#32))
    (step (withMessage [0x00010001#32, 0x0#32, 0x102#32, 0x2#32] (installed 0 [] (fresh.writeControl 0 0x3F800000#32)))) = true := by decide +kernel
theorem test_replace_empty_slot : nextHas (fun t => decide (t.ch = State.reset.ch ∧ t.status = 0#32)) (step (withMessage [0x00010501#32, 0x0#32, 0x102#32, 0x2#32] State.reset)) = true := by decide +kernel
/-- R194. -/
theorem test_rmch_empties_the_slot : nextHas (fun t => decide (t.ch = State.reset.ch)) (step (withMessage [0x00000302#32] (installed 3 [] fresh))) = true := by decide +kernel
/-- R195, R196: registers go to +0.0, node scalars stay. -/
theorem test_resetdata_keeps_scalars : nextHas (fun t => decide (t.creg 0 0 = some 0x00000000#32 ∧ t.areg 0 0 0 = some 0x00000000#32) &&
      match (t.nodes 0) with | some [.osc _ _ _ _ phase] => decide (phase = 0x3F000000#32) | _ => false)
    (step (withMessage [0x00000003#32] (setSlot State.reset 0 (some { nodes := [.osc (.const f1 f1) (.const f0 f0) (.const f0 f0) (.freeAudio zeroSamples) 0x3F000000#32], data := (fresh.writeControl 0 f1).writeAudio 0 (samples [f1]) })))) = true := by decide +kernel
/-- R197, R185: UNIMPL, or BADCMD for a header with reserved bits. -/
theorem test_addnode_unimpl : nextHas (fun t => decide (t.status = 2#32 ∧ t.ch = State.reset.ch)) (step (withMessage [0x00050304#32] State.reset)) = true := by decide +kernel
theorem test_addnode_bad_header : nextHas (fun t => decide (t.status = 1#32)) (step (withMessage [0x01000004#32] State.reset)) = true := by decide +kernel

/-! ## Mixer and clamp (R210, R211) -/

theorem test_mix_and_clamp : mix p0 0 [0x3F400000#32, 0xC0000000#32] = 0xBFA00000#32 ∧ clamp 0xBFA00000#32 = 0xBF800000#32 ∧
    mix { p0 with mixMode := .overwrite } 0 [0x3F400000#32, 0xC0000000#32] = 0xC0000000#32 ∧ clamp 0x80000000#32 = 0x80000000#32 ∧ clamp 0x7FC00001#32 = 0x7FC00001#32 := by decide +kernel

/-! ## Witnesses: a concrete state and operands that meet the hypotheses of each statement -/

theorem witness_DecodeOfEncodeIsTheInstruction_nodes :
    (Instr.abs (.audio 15#8) (.control 15#8)).wf p0 = true ∧ (Instr.add (.const 0xFFFFFFFF#32) .freeAudio (.audio 0#8)).wf p0 = true ∧
    (Instr.adsr (.control 1#8) (.const f0) (.const f0) (.const f1) (.const f1) (.control 2#8) (.audio 0#8)).wf p0 = true ∧
    (Instr.mul (.audio 0#8) (.audio 0#8) (.audio 0#8)).wf p0 = true ∧ (Instr.osc (.control 0#8) (.const f0) (.const f0) (.audio 0#8)).wf p0 = true := by decide +kernel
theorem witness_DecodeOfEncodeIsTheInstruction_events_and_commands :
    (Instr.noteon 15#4 127#7 127#7).wf p0 = true ∧ (Instr.noteoff 15#4 127#7 127#7).wf p0 = true ∧ (Instr.reset 15#4 127#7 127#7).wf p0 = true ∧
    (Instr.other 0xFFFFFFFF#32).wf p0 = true ∧ (Instr.setch 255#8 (List.replicate 16 (.abs .freeAudio .freeAudio))).wf p0 = true ∧ (Instr.replace 0#8 []).wf p0 = true ∧
    (Instr.rmch 255#8).wf p0 = true ∧ Instr.resetdata.wf p0 = true ∧ (Instr.addnode 255#8 255#8 [0xFFFFFFFF#32]).wf p0 = true := by decide +kernel
theorem witness_EncodeOfDecodeIsTheWords : decode p0 .node [0x3#32, 0x0#32, 0x2#32, 0x3#32] = .ok (.mul .freeAudio (.audio 0#8) (.control 0#8)) ∧
    decode p0 .midi [0xFFFFFFFF#32] = .ok (.other 0xFFFFFFFF#32) ∧ decode p0 .command [0xFF02#32] = .ok (.rmch 255#8) := by decide +kernel
theorem witness_MessageIsMalformedExactlyWhenNoCommandHasItsWords : decodeCommand p0 [0x5#32] = .error .opKnown ∧ decode p0 .command [0x00000101#32] = .ok (.replace 1#8 []) ∧
    decode p0 .midi [0x0000000F#32] = .ok (.other 0x0000000F#32) ∧ parseNode p0 [0x3#32, 0x0#32, 0x2#32, 0x3#32, 0x9#32] = .ok (.mul .freeAudio (.audio 0#8) (.control 0#8), [0x9#32]) := by decide +kernel
theorem witness_EventWordClasses : (0x00008000#32).getLsbD 15 = true ∧ (0x00800000#32).extractLsb' 23 9 ≠ 0#9 ∧ 3 ≤ ((0x00000003#32).extractLsb' 0 4).toNat ∧
    ∀ t : BitVec 2, t ≠ 3#2 → (eventWord (t.setWidth 4) 15#4 127#7 127#7).getLsbD 15 = false ∧ (eventWord (t.setWidth 4) 15#4 127#7 127#7).extractLsb' 23 9 = 0#9 ∧
      (eventWord (t.setWidth 4) 15#4 127#7 127#7).extractLsb' 0 4 = t.setWidth 4 := by decide +kernel

/-- A message stage, an event stage and a render stage with a command, an event and a node next. -/
def sMsg : State := withMessage [0x00010000#32, 0x0#32, 0x102#32, 0x2#32] State.reset
def sEv : State := withEvent 0x00644500#32 (installed 0 [] fresh)
def dAbs : NodeDesc := .abs (.audio 1#8) (.audio 0#8)
def dAdd : NodeDesc := .add (.audio 1#8) (.control 0#8) (.audio 0#8)
def dMul : NodeDesc := .mul (.audio 1#8) (.const f2) (.control 3#8)
def dOsc : NodeDesc := .osc (.control 0#8) (.const f0) (.const f0) (.audio 0#8)
def dAdsr : NodeDesc := .adsr (.control 1#8) (.const f1) (.const f1) (.const f1) (.const f1) (.control 2#8) (.audio 0#8)
def sNode (d : NodeDesc) : State := rendering [d] fresh 1 48000#32
def ctx (d : NodeDesc) : NodeCtx := ⟨txRender 1 48000#32 (channelStart 0 1), channelStart 0 1, { nodes := [installNode d], data := fresh }, installNode d⟩

theorem witness_StepRunsTheDecodedInstruction_command : sMsg.params.wf = true ∧ sMsg.turns = [] ∧ sMsg.tx = some (txAt 0 48000#32 [] (.apply [0x00010000#32, 0x0#32, 0x102#32, 0x2#32])) ∧
    decode sMsg.params .command [0x00010000#32, 0x0#32, 0x102#32, 0x2#32] = .ok (.setch 0#8 [dAbs]) := by decide +kernel
theorem witness_StepRunsTheDecodedInstruction_event : sEv.params.wf = true ∧ sEv.turns = [] ∧ sEv.tx = some (txAt 0 48000#32 [0x00644500#32] .midi) ∧
    decode sEv.params .midi [0x00644500#32] = .ok (.noteon 0#4 69#7 100#7) := by decide +kernel
theorem witness_StepRunsTheDecodedInstruction_turn : ({ sEv with turns := [.asp, .popMirror] } : State).params.wf = true ∧
    ({ sEv with turns := [.asp, .popMirror] } : State).turns = .asp :: [.popMirror] ∧ ({ sEv with turns := [.asp, .popMirror] } : State).turns.head? = some .asp := by decide +kernel
theorem witness_StepRunsTheDecodedInstruction_node : (sNode dAbs).params.wf = true ∧ (sNode dAbs).turns = [] ∧ (sNode dAbs).tx = some (txRender 1 48000#32 (channelStart 0 1)) ∧
    decode (sNode dAbs).params .node (encodeNode (installNode dAbs).desc) = .ok dAbs.toInstr := by decide +kernel
theorem witness_node_context (d : NodeDesc) : (sNode d).nodeAt = some (ctx d) := rfl
theorem witness_node_stack (d : NodeDesc) : (sNode d).stack 0 = some { nodes := [installNode d], data := fresh } := rfl
/-- The contexts of the five completion statements, one of each kind. -/
theorem witness_node_completions : (∃ a b, installNode dAbs = .abs a b) ∧ (∃ a b c, installNode dAdd = .add a b c) ∧ (∃ a b c, installNode dMul = .mul a b c) ∧
    (∃ a b c d x, installNode dOsc = .osc a b c d x) ∧ (∃ g a d s r t o v p, installNode dAdsr = .adsr g a d s r t o v p) :=
  ⟨⟨_, _, rfl⟩, ⟨_, _, _, rfl⟩, ⟨_, _, _, rfl⟩, ⟨_, _, _, _, _, rfl⟩, ⟨_, _, _, _, _, _, _, _, _, rfl⟩⟩
theorem witness_NodeKernelFrame : ∃ t, exec (installNode dAbs).desc.toInstr (sNode dAbs) = .next t :=
  let ⟨t, h, _⟩ := exists_next (P := fun _ => true) (by decide +kernel); ⟨t, h⟩
/-- Output of `abs a1, a0`: `areg[1]` and every control register are outside the outputs, at the ends of their files. -/
theorem witness_NodeKernelFrame_registers : (∀ k : BitVec 8, k.toNat = 1 → PortSpec.audio k ∉ dAbs.outputs) ∧ (∀ k : BitVec 8, k.toNat = 15 → PortSpec.audio k ∉ dAbs.outputs) ∧
    (∀ k : BitVec 8, k.toNat = 0 → PortSpec.control k ∉ dAbs.outputs) := by decide +kernel
theorem witness_NodeAwayFromItsRenderPositionIsRefused : ∀ x, State.reset.nodeAt = some x → x.node.desc ≠ dAbs := fun _ h => nomatch h

theorem witness_MalformedCommandSetsBadcmdOnly : (withMessage [0x5#32] State.reset).params.wf = true ∧ (withMessage [0x5#32] State.reset).turns = [] ∧
    (withMessage [0x5#32] State.reset).tx = some (txAt 0 48000#32 [] (.apply [0x5#32])) ∧ decodeCommand p0 [0x5#32] = .error .opKnown := by decide +kernel
/-- The controller's and the platform's turns, at the last free place of CMDQ and with none left. -/
def sTurn (t : Turn) (queued mirrored : Nat) : State :=
  { State.reset with turns := [t], cmdq := List.replicate queued [0x3#32], mirq := List.replicate mirrored 0x00644500#32 }
theorem witness_PushIsAcceptedOrRejected : (sTurn (.push []) 7 0).params.wf = true ∧ (sTurn (.push []) 7 0).turns = [.push []] ∧
    (sTurn (.push []) 7 0).cmdq.length < (sTurn (.push []) 7 0).params.cmdCap ∧ (sTurn (.push []) 8 0).params.cmdCap ≤ (sTurn (.push []) 8 0).cmdq.length := by decide +kernel
theorem witness_MirrorPopTakesTheHead : (sTurn .popMirror 0 0).params.wf = true ∧ (sTurn .popMirror 0 0).turns = [.popMirror] ∧ (sTurn .popMirror 0 0).mirq = [] ∧
    (sTurn .popMirror 0 1).mirq = [0x00644500#32] := by decide +kernel
theorem witness_StatusReadAndWrite : (sTurn .readStatus 0 0).params.wf = true ∧ (sTurn .readStatus 0 0).turns = [.readStatus] ∧
    (sTurn (.writeStatus 0xFFFFFFFF#32) 0 0).turns = [.writeStatus 0xFFFFFFFF#32] := by decide +kernel
theorem witness_PowerOnResetValues : (sTurn .powerOn 8 1).params.wf = true ∧ (sTurn .powerOn 8 1).turns = [.powerOn] := by decide +kernel

/-- A transaction of `len` samples at a stage, with commands queued. -/
def sStage (stage : Stage) (len queued : Nat) : State :=
  { State.reset with tx := some (txAt len 48000#32 [] stage), outBuf := List.replicate len f1, cmdq := List.replicate queued [0x3#32] }
theorem witness_DrainPopsInFifoOrder : (sStage .drain 0 2).params.wf = true ∧ (sStage .drain 0 2).turns = [] ∧ (sStage .drain 0 2).tx = some (txAt 0 48000#32 [] .drain) ∧
    (sStage .drain 0 2).cmdq = [0x3#32] :: [[0x3#32]] ∧ (sStage .drain 0 0).cmdq = [] := by decide +kernel
/-- The driver's call of one sample, with `L_MAX` as given. -/
def sCall (connected : Bool) (lMax : Option Nat) : State :=
  { State.reset with blocks := [{ events := [], buffer := [f1], rate := 48000#32, connected := connected }], params := { p0 with lMax := lMax } }
theorem witness_DisconnectedBlockStopsWithNoOtherEffect : (sCall false (some 1)).params.wf = true ∧ (sCall false (some 1)).turns = [] ∧ (sCall false (some 1)).tx = none ∧
    (sCall false (some 1)).blocks = [{ events := [], buffer := [f1], rate := 48000#32, connected := false }] ∧ tooLong (sCall false (some 1)).params 1 = false := by decide +kernel
theorem witness_IdleHoldsItsStateUntilTheNextBlock : State.reset.params.wf = true ∧ State.reset.turns = [] ∧ State.reset.tx = none ∧ State.reset.blocks = [] ∧
    (sCall true (some 1)).blocks = [{ events := [], buffer := [f1], rate := 48000#32, connected := true }] ∧ (∀ m, (sCall true (some 1)).params.lMax = some m → 1 ≤ m) ∧
    (sCall true (some 0)).params.lMax = some 0 ∧ (0 : Nat) < ([f1] : List F32).length :=
  ⟨by decide +kernel, rfl, rfl, rfl, rfl, fun m h => by cases h; exact Nat.le_refl 1, rfl, by decide⟩
/-- One configuration past each bound of R10, and the configurations at the bounds. -/
def badParams : List Params := [{ p0 with na := 0 }, { p0 with na := 257 }, { p0 with nc := 257 }, { p0 with pitchCreg := 16 }, { p0 with gateCreg := 16 }, { p0 with gateCreg := 0 },
  { p0 with nodeCap := 0 }, { p0 with nodeCap := 256 }, { p0 with nch := 0 }, { p0 with nch := 257 }, { p0 with cmdCap := 0 }, { p0 with mirrorCap := 0 },
  { p0 with timeReg := .audio 16 }, { p0 with timeReg := .control 16 }, { p0 with timeReg := .control 0 }, { p0 with timeReg := .control 1 }]
theorem witness_ConfigurationThatBreaksAConstraintIsRefused : (badParams.all fun p => refusedWith .badParameters (step { State.reset with params := p })) = true := by decide +kernel
theorem test_params_bounds_are_accepted : ({ p0 with na := 256, nc := 256, nodeCap := 255, nch := 256, timeReg := .audio 255 } : Params).wf = true ∧
    ({ p0 with na := 1, nc := 3, nodeCap := 1, nch := 1, cmdCap := 1, mirrorCap := 1 } : Params).wf = true := by decide +kernel

/-- Render positions: after the last node, at the end of the block, at an empty slot, after the last slot. -/
def sPos (pos : RenderPos) : State := { installed 0 [] fresh with tx := some (txRender 300 48000#32 pos), outBuf := List.replicate 300 f0 }
theorem witness_RenderPositionAdvances : (sPos ⟨0, 256, 44, 0⟩).params.wf = true ∧ (sPos ⟨0, 256, 44, 0⟩).turns = [] ∧
    (sPos ⟨0, 256, 44, 0⟩).tx = some (txRender 300 48000#32 ⟨0, 256, 44, 0⟩) ∧ ((256 : Nat) < 300 ∧ (300 : Nat) ≤ 300 ∧ (256 : Nat) ≤ 256) ∧
    (sPos ⟨1, 0, 256, 0⟩).stack 1 = none ∧ (1 : Nat) < (sPos ⟨1, 0, 256, 0⟩).params.nch ∧ (sPos ⟨16, 0, 256, 0⟩).stack 16 = none ∧ (sPos ⟨16, 0, 256, 0⟩).params.nch ≤ 16 := by decide +kernel
theorem witness_RenderPositionAdvances_active (pos : RenderPos) : (sPos pos).stack 0 = some { nodes := [], data := fresh } := rfl
theorem witness_RenderPositionAdvances_begin : (sStage .midi 2 0).params.wf = true ∧ (sStage .midi 2 0).turns = [] ∧ (sStage .midi 2 0).tx = some (txAt 2 48000#32 [] .midi) ∧
    (txAt 2 48000#32 [] .midi).events = [] := by decide +kernel
/-- R75: every active channel, and no other, has a render buffer of `L` samples from the start of the render phase. -/
theorem test_render_buffers : nextHas (fun t => decide ((t.tx.map fun tx => tx.chout.map fun e => (e.1, e.2.length)) = some [(3, 2)]))
    (step { installed 3 [] fresh with tx := some (txAt 2 48000#32 [] .midi), outBuf := [f0, f0] }) = true := by decide +kernel
/-- R150: the copy writes samples `b` to `b + n - 1` and keeps the others. -/
theorem test_output_copy : copyInto 1 [f1, f2] [f0, f0, f0, fm1] = [f0, f1, f2, fm1] ∧ choutCopy 3 0 [f1] [(0, [f0]), (3, [f0])] = [(0, [f0]), (3, [f1])] := by decide +kernel
theorem witness_EmptyProgramCopiesTheMasterBus : (sPos ⟨0, 0, 256, 0⟩).tx = some (txRender 300 48000#32 { c := 0, b := 0, n := min 256 300, k := 0 }) ∧
    (txRender 300 48000#32 ⟨0, 0, 256, 0⟩).chout[0]? = some (0, List.replicate 300 f0) ∧ (List.replicate 300 f0).length = (txRender 300 48000#32 ⟨0, 0, 256, 0⟩).len ∧
    (txRender 0 48000#32 { c := 0, b := 0, n := min 256 0, k := 0 }).chout[0]? = some (0, []) := by decide +kernel
theorem witness_MixerCombinesChannels : p0.mixMode = .sum ∧ ({ p0 with mixMode := .overwrite } : Params).mixMode = .overwrite := by decide +kernel
theorem witness_ClampCases : flt 0xBF800001#32 0xBF800000#32 = true ∧ fgt 0x3F800001#32 0x3F800000#32 = true ∧ flt 0xBF800000#32 0xBF800000#32 = false ∧ fgt 0xBF800000#32 0x3F800000#32 = false ∧
    isNaN 0x7F800001#32 = true ∧ isNaN 0x7F800000#32 = false := by decide +kernel
theorem witness_OutputPhaseWritesEverySampleAndContinues : (sStage (.output 0) 2 0).params.wf = true ∧ (sStage (.output 0) 2 0).turns = [] ∧
    (sStage (.output 0) 2 0).tx = some (txAt 2 48000#32 [] (.output 0)) ∧ (txAt 2 48000#32 [] (.output 0)).len = (sStage (.output 0) 2 0).outBuf.length := by decide +kernel
theorem witness_UniformIndexReadAfterWrite : (Port.freeAudio zeroSamples).isAudio = true ∧ (Port.const f0 f0).isAudio = false ∧ (255 : Nat) < 256 := by decide +kernel
theorem witness_PortReadAndWriteMoveWholeRegisters : fresh.wf p0 = true ∧ (15#8).toNat < p0.na ∧ (15#8).toNat < p0.nc := by decide +kernel
theorem witness_AddAndMulCommuteAndMulByOneCopies : isNaN 0x7F800000#32 = false ∧ isNaN 0x80000000#32 = false := by decide +kernel
theorem witness_ComparisonsWithNaN : isNaN 0x7F800001#32 = true ∧ isNaN 0xFFFFFFFF#32 = true := by decide +kernel
theorem witness_DefaultPhaseWrapRange : p0.oscWrap = .fmod ∧ ({ p0 with oscWrap := .floored } : Params).oscWrap = .floored ∧
    (isFinite 0x7F7FFFFF#32 = true ∧ flt 0x7F7FFFFF#32 0#32 = false) ∧ (isFinite 0x80000000#32 = true ∧ flt 0x80000000#32 0#32 = false) ∧
    (isFinite 0x80000001#32 = true ∧ flt 0x80000001#32 0#32 = true) ∧ (flt 0x3F7FFFFF#32 0x3F800000#32 = true ∧ fgt 0xBF7FFFFF#32 0xBF800000#32 = true) ∧
    isInf 0x7F800000#32 = true ∧ isNaN 0x7F800001#32 = true := by decide +kernel
theorem witness_FiniteArithmeticIsCorrectlyRounded : isFinite 0x7F7FFFFF#32 = true ∧ isFinite 0x80000000#32 = true ∧ isFinite 0x00000001#32 = true := by decide +kernel
/-- `value`, on the fields of IEEE 754: 1.0, the largest finite value, the smallest subnormal. -/
theorem test_value : value f1 = 1 ∧ value 0x7F7FFFFF#32 = (2 ^ 24 - 1) * 2 ^ 104 ∧ value 0x80000001#32 = -1 / 2 ^ 149 := by decide +kernel
theorem witness_FiniteArithmeticIsCorrectlyRounded_divisor : value 0x80000001#32 ≠ 0 := by decide +kernel
theorem witness_FiniteArithmeticIsCorrectlyRounded_infinite : isInf 0x7F800000#32 = true ∧ isInf 0xFF800000#32 = true ∧ isNeg 0x7F800000#32 ≠ isNeg 0xFF800000#32 ∧
    isFinite 0x80000001#32 = true ∧ value 0x80000001#32 ≠ 0 ∧ isFinite 0x80000000#32 = true ∧ value 0x80000000#32 = 0 := by decide +kernel
theorem witness_ComparisonsOrderTheValues : isNaN 0x80000000#32 = false ∧ isNaN 0x7F800000#32 = false ∧ isFinite 0x80000000#32 = true ∧ isInf 0x7F800000#32 = true ∧ isInf 0xFF800000#32 = true := by decide +kernel
/-- C6: the floored modulo takes -0.25 to 0.75 and never reaches 1.0; a table takes what it lists, and any other phase as the default does. -/
theorem test_osc_wrap_parameter : oscWrap { p0 with oscWrap := .floored } 0 0xBE800000#32 = 0x3F400000#32 ∧ oscWrap { p0 with oscWrap := .floored } 0 0x80000001#32 = 0x3F7FFFFF#32 ∧
    oscWrap p0 0 0xBE800000#32 = 0xBE800000#32 ∧ oscWrap { p0 with oscWrap := .table [(f1, f2)] } 0 f1 = f2 ∧ oscWrap { p0 with oscWrap := .table [(f1, f2)] } 0 f2 = f0 := by decide +kernel

/-- A state that meets the invariant, with channel 0 active. -/
theorem witness_invariant : (installed 0 [dOsc, dAdsr] fresh).inv = true := by decide +kernel
theorem witness_NoteOnCompletes : (installed 15 [] fresh).inv = true ∧ ((installed 15 [] fresh).stack 15).isSome = true ∧ (15#4).toNat = 15 ∧ p0.vel0NoteOff = false ∧
    p0.retrigScope = .messageChannel ∧ ({ installed 15 [] fresh with params := { p0 with vel0NoteOff := true, retrigScope := .allActive, timeReg := .audio 3 } }).inv = true := by decide +kernel
theorem witness_OtherEventCompletes : sEv.inv = true ∧ sEv.params.otherWrites = true ∧ ({ sEv with params := { p0 with otherWrites := false } }).inv = true := by decide +kernel
theorem witness_MidiEventFrame : ∃ t, exec (.noteon 0#4 69#7 100#7) sEv = .next t :=
  let ⟨t, h, _⟩ := exists_next (P := fun _ => true) (o := exec (.noteon 0#4 69#7 100#7) sEv) (by decide +kernel); ⟨t, h⟩
theorem witness_MidiEventFrame_registers : (3 : Nat) ≠ p0.gateCreg ∧ (3 : Nat) ≠ p0.pitchCreg ∧ p0.timeReg ≠ .control 3 ∧ p0.timeReg = .control 2 ∧
    retriggers p0 (.noteon 0#4 69#7 100#7) 1 = false ∧ retriggers p0 (.noteoff 0#4 69#7 100#7) 0 = false ∧ p0.timeReg ≠ .audio 0 := by decide +kernel
theorem witness_commands_in_range : (installed 0 [dOsc] fresh).inv = true ∧ (15#8).toNat < (installed 0 [dOsc] fresh).params.nch ∧ (installed 0 [dOsc] fresh).stack 15 = none := by decide +kernel
theorem witness_commands_active_channel : (installed 0 [dOsc] fresh).stack 0 = some { nodes := [installNode dOsc], data := fresh } := rfl
theorem witness_AddNodeSetsUnimplOnly : (0x00FFFF04#32).extractLsb' 0 4 = 4#4 ∧ (0x00FFFF04#32).extractLsb' 4 4 = 0#4 ∧ (0x00FFFF04#32).extractLsb' 24 8 = 0#8 ∧
    (0x00000014#32).extractLsb' 4 4 ≠ 0#4 ∧ (0x01000004#32).extractLsb' 24 8 ≠ 0#8 := by decide +kernel
theorem witness_ChannelOutOfRangeIsIgnored : State.reset.params.nch ≤ (16#8).toNat := by decide +kernel
theorem witness_EveryStepKeepsTheInvariant : (sNode dAdsr).inv = true ∧ ∃ t, step (sNode dAdsr) = .next t :=
  ⟨by decide +kernel, let ⟨t, h, _⟩ := exists_next (P := fun _ => true) (o := step (sNode dAdsr)) (by decide +kernel); ⟨t, h⟩⟩
theorem witness_OnlyABlockLongerThanTheLimitStopsTheMachine : (sCall true (some 0)).inv = true ∧ refusedWith .blockTooLong (step (sCall true (some 0))) = true := by decide +kernel
theorem witness_TransactionWorkIsBounded : (sStage .drain 300 8).inv = true ∧ (sStage .drain 300 8).tx = some (txAt 300 48000#32 [] .drain) := by decide +kernel
/-- Two messages for channel 15 and one for channel 0, before the block that installs them. -/
def cfg : SetupList := [(15#8, []), (0#8, [dOsc, dAdsr]), (15#8, [dAbs])]
def sInstall : State :=
  { State.reset with cmdq := cfg.map (fun e => encode (.setch e.1 e.2)), blocks := [{ events := [], buffer := [], rate := 48000#32, connected := true }] }
theorem witness_InstallingBlockInstallsEveryChannel : sInstall.inv = true ∧ sInstall.turns = [] ∧ sInstall.tx = none ∧
    ∀ e ∈ cfg, (Instr.setch e.1 e.2).wf sInstall.params = true ∧ e.1.toNat < sInstall.params.nch := by decide +kernel
theorem witness_InstalledStates : p0.wf = true ∧ SetupList.ok p0 cfg := ⟨by decide +kernel, by unfold SetupList.ok; decide +kernel⟩
/-- `Reset` and `Quiet` (R249): the reset state meets both, and a mirror pop or an ASP turn does not break the second, nor a push after the claim's last transaction. -/
theorem test_launch_premises : State.reset.isReset = true ∧ (State.resetWith p0).isReset = true ∧ ({ State.reset with status := 1#32 } : State).isReset = false ∧
    ({ State.reset with reply := some .ok } : State).isReset = true ∧ ({ State.reset with cmdq := [[]] } : State).isReset = false ∧
    ({ State.reset with turns := [.asp, .popMirror, .readStatus, .push []] } : State).quiet 3 = true ∧
    ({ State.reset with turns := [.asp, .popMirror, .readStatus, .push []] } : State).quiet 4 = false := by decide +kernel
/-- A boot by real pushes (R248), from the reset state with the pushes among its turns, comes to a state that meets the launch premise. -/
theorem test_boot_by_pushes_is_launched :
    nextHas (fun t => decide (t.params = p0 ∧ ({ t with cmdq := [] } : State).isReset = true ∧ t.cmdq = cfg.map (fun e => encode (.setch e.1 e.2)) ∧
        t.reply = some .ok ∧ t.blocks = [{ events := [], buffer := [], rate := 48000#32, connected := true }] ∧ t.turns = [.popMirror]))
      (core.run 3 { sInstall with cmdq := [], turns := cfg.map (fun e => .push (encode (.setch e.1 e.2))) ++ [.popMirror] }) = true := by decide +kernel
theorem test_reset_is_reset_with_the_defaults : State.resetWith p0 = State.reset := rfl
theorem witness_RenderingStaysInItsChannel : (sNode dOsc).tx = some (txRender 1 48000#32 (channelStart 0 1)) ∧ ∃ t, aspStep (sNode dOsc) = .next t :=
  ⟨rfl, let ⟨t, h, _⟩ := exists_next (P := fun _ => true) (o := aspStep (sNode dOsc)) (by decide +kernel); ⟨t, h⟩⟩
/-- Channel 0 about to copy its chunk, with a buffer of channel 15 beside its own. -/
theorem witness_RenderingStaysInItsChannel_buffers :
    ({ txRender 1 48000#32 (channelStart 0 1) with chout := [(0, [f0]), (15, [f1])] } : Tx).chout[1]? = some (15, [f1]) ∧ (15 : Nat) ≠ (channelStart 0 1).c ∧
    nextHas (fun t => decide ((t.tx.map Tx.chout) = some [(0, [f2]), (15, [f1])]))
      (aspStep { installed 0 [] (fresh.writeAudio 0 (samples [f2])) with tx := some { txRender 1 48000#32 (channelStart 0 1) with chout := [(0, [f0]), (15, [f1])] } }) = true := by decide +kernel
theorem witness_OnlyANoteOnChangesThePitch : ∃ t, step sEv = .next t ∧ t.pitch ≠ sEv.pitch :=
  let ⟨t, h, hp⟩ := exists_next (P := fun t => decide (t.pitch ≠ sEv.pitch)) (o := step sEv) (by decide +kernel); ⟨t, h, of_decide_eq_true hp⟩
theorem witness_AspNeverClearsAStatusBit : ({ sEv with status := 3#32 } : State).status.getLsbD 1 = true ∧ ∃ t, aspStep { sEv with status := 3#32 } = .next t :=
  ⟨by decide +kernel, let ⟨t, h, _⟩ := exists_next (P := fun _ => true) (o := aspStep { sEv with status := 3#32 }) (by decide +kernel); ⟨t, h⟩⟩
theorem witness_OnlyCommandsChangeTheProgramStore : (∀ tx msg, sEv.tx = some tx → tx.stage ≠ .apply msg) ∧ ∃ t, aspStep sEv = .next t :=
  ⟨fun tx msg h => by cases h; exact nofun, let ⟨t, h, _⟩ := exists_next (P := fun _ => true) (o := aspStep sEv) (by decide +kernel); ⟨t, h⟩⟩

end Sys2Proof.Tests
end

section
/-! SUPPORT. The scale of the finite magnitudes (R12): the units a magnitude stands for, as a significand times a power of two, and in the order of the magnitude bits. -/

namespace Sys2Proof.Machine

/-- The units of `2^-149` that magnitude bits stand for, on past `∞` as if the exponent had no end. -/
def magUnits (m : Nat) : Nat :=
  if m / 2 ^ 23 = 0 then m % 2 ^ 23 else (2 ^ 23 + m % 2 ^ 23) * 2 ^ (m / 2 ^ 23 - 1)

theorem units_eq_magUnits (x : F32) : units x = magUnits (magBits x) := rfl

/-- A significand of 24 bits, or one that has just run over, and its quantum: the bits are their sum, since the hidden bit carries into the exponent. -/
theorem magUnits_significand {t r : Nat} (hr : r ≤ 2 ^ 24) (ht : t = 0 ∨ 2 ^ 23 ≤ r) :
    magUnits (t * 2 ^ 23 + r) = r * 2 ^ t := by
  unfold magUnits
  rcases Nat.lt_or_ge r (2 ^ 23) with hlow | hhigh
  · obtain rfl : t = 0 := by omega
    rw [if_pos (by omega)]
    omega
  · rcases Nat.lt_or_eq_of_le hr with hlt | rfl
    · have hdiv : (t * 2 ^ 23 + r) / 2 ^ 23 = t + 1 := by omega
      have hmod : (t * 2 ^ 23 + r) % 2 ^ 23 = r - 2 ^ 23 := by omega
      rw [hdiv, hmod, if_neg (by omega), Nat.add_sub_cancel, Nat.add_sub_cancel' hhigh]
    · have hdiv : (t * 2 ^ 23 + 2 ^ 24) / 2 ^ 23 = t + 2 := by omega
      have hmod : (t * 2 ^ 23 + 2 ^ 24) % 2 ^ 23 = 0 := by omega
      rw [hdiv, hmod, if_neg (by omega), show t + 2 - 1 = t + 1 by omega, pow_succ]
      ring

theorem exists_significand (m : Nat) :
    ∃ t r, m = t * 2 ^ 23 + r ∧ r < 2 ^ 24 ∧ (t = 0 ∨ 2 ^ 23 ≤ r) :=
  ⟨m / 2 ^ 23 - 1, m - (m / 2 ^ 23 - 1) * 2 ^ 23, by omega, by omega, by omega⟩

/-- A larger magnitude has larger bits. -/
theorem magUnits_strictMono : StrictMono magUnits := by
  refine strictMono_nat_of_lt_succ fun m => ?_
  obtain ⟨t, r, rfl, hr, ht⟩ := exists_significand m
  rw [Nat.add_assoc, magUnits_significand hr.le ht, magUnits_significand hr (by omega)]
  exact Nat.mul_lt_mul_of_pos_right r.lt_succ_self (by positivity)

@[simp] theorem magUnits_zero : magUnits 0 = 0 := rfl

@[simp] theorem magUnits_eq_zero {m : Nat} : magUnits m = 0 ↔ m = 0 :=
  magUnits_strictMono.injective.eq_iff' magUnits_zero

/-- A magnitude is a multiple of a quantum, or lies under every significand of 24 bits with that quantum. -/
theorem dvd_magUnits_or_lt (t m : Nat) : 2 ^ t ∣ magUnits m ∨ magUnits m < 2 ^ 23 * 2 ^ t ∧ 0 < t := by
  obtain ⟨t', r, rfl, hr, ht⟩ := exists_significand m
  rw [magUnits_significand hr.le ht]
  rcases Nat.lt_or_ge t' t with hlt | hge
  · refine .inr ⟨?_, by omega⟩
    calc r * 2 ^ t' < 2 ^ 24 * 2 ^ t' := Nat.mul_lt_mul_of_pos_right hr (by positivity)
      _ = 2 ^ 23 * 2 ^ (t' + 1) := by ring
      _ ≤ 2 ^ 23 * 2 ^ t := Nat.mul_le_mul_left _ (Nat.pow_le_pow_right two_pos hlt)
  · exact .inl (Dvd.dvd.mul_left (pow_dvd_pow 2 hge) r)

end Sys2Proof.Machine
end

section
/-! SUPPORT. Rounding (R12): `roundHalfEven` is a nearest integer, `roundUnits` a nearest magnitude, ties to even; and what it rounds to `∞`, and what not at all. -/

namespace Sys2Proof.Machine

/-- Which way the half-even rounding goes, by the fraction part of the quotient. -/
theorem roundHalfEven_cases (num : Nat) {den : Nat} (hd : 0 < den) :
    ∃ f : ℚ, (num : ℚ) / den = (num / den : Nat) + f ∧ 0 ≤ f ∧ f < 1 ∧
      (roundHalfEven num den = num / den ∧ (f < 1 / 2 ∨ f = 1 / 2 ∧ num / den % 2 = 0) ∨
       roundHalfEven num den = num / den + 1 ∧ (1 / 2 < f ∨ f = 1 / 2 ∧ num / den % 2 = 1)) := by
  have hq : (0 : ℚ) < den := by exact_mod_cast hd
  have hlt : (num % den : Nat) < (den : ℚ) := by exact_mod_cast Nat.mod_lt num hd
  have hsum : (num : ℚ) = den * (num / den : Nat) + (num % den : Nat) := by exact_mod_cast (Nat.div_add_mod num den).symm
  have hhalf : ((num % den : Nat) : ℚ) / den < 1 / 2 ↔ 2 * (num % den) < den := by
    rw [div_lt_div_iff₀ hq two_pos, one_mul, mul_comm]; exact_mod_cast Iff.rfl
  have htie : ((num % den : Nat) : ℚ) / den = 1 / 2 ↔ 2 * (num % den) = den := by
    rw [div_eq_div_iff hq.ne' two_ne_zero, one_mul, mul_comm]; exact_mod_cast Iff.rfl
  have hpast : 1 / 2 < ((num % den : Nat) : ℚ) / den ↔ den < 2 * (num % den) := by
    rw [div_lt_div_iff₀ two_pos hq, one_mul, mul_comm]; exact_mod_cast Iff.rfl
  refine ⟨(num % den : Nat) / (den : ℚ), ?_, by positivity, (div_lt_one hq).2 hlt, ?_⟩
  · rw [div_eq_iff hq.ne', add_mul, div_mul_cancel₀ _ hq.ne', mul_comm]; exact hsum
  · rw [hhalf, htie, hpast]
    simp only [roundHalfEven]
    split <;> omega

theorem roundHalfEven_eq_or (num den : Nat) :
    roundHalfEven num den = num / den ∨ roundHalfEven num den = num / den + 1 := by
  simp only [roundHalfEven]; split <;> simp

theorem roundHalfEven_of_dvd {num den : Nat} (hd : 0 < den) (h : den ∣ num) : roundHalfEven num den = num / den := by
  simp only [roundHalfEven, Nat.mod_eq_zero_of_dvd h]
  exact if_neg (by omega)

theorem abs_sub_roundHalfEven_le (num : Nat) {den : Nat} (hd : 0 < den) :
    |(num : ℚ) / den - roundHalfEven num den| ≤ 1 / 2 := by
  obtain ⟨f, hf, h0, h1, ⟨hr, h⟩ | ⟨hr, h⟩⟩ := roundHalfEven_cases num hd
  · have hhalf : f ≤ 1 / 2 := h.elim le_of_lt fun h => h.1.le
    rw [hf, hr, add_sub_cancel_left, abs_of_nonneg h0]
    exact hhalf
  · have hhalf : 1 / 2 ≤ f := h.elim le_of_lt fun h => h.1.ge
    rw [hf, hr, Nat.cast_add, Nat.cast_one, add_sub_add_left_eq_sub, abs_of_nonpos (by linarith)]
    linarith

/-- A tie is rounded to an even integer. -/
theorem roundHalfEven_even_of_tie (num : Nat) {den : Nat} (hd : 0 < den)
    (htie : |(num : ℚ) / den - roundHalfEven num den| = 1 / 2) : roundHalfEven num den % 2 = 0 := by
  obtain ⟨f, hf, h0, h1, ⟨hr, h⟩ | ⟨hr, h⟩⟩ := roundHalfEven_cases num hd
  · rw [hf, hr, add_sub_cancel_left, abs_of_nonneg h0] at htie
    rcases h with h | ⟨-, h⟩
    · exact absurd htie h.ne
    · rw [hr]; exact h
  · rw [hf, hr, Nat.cast_add, Nat.cast_one, add_sub_add_left_eq_sub, abs_of_nonpos (by linarith)] at htie
    rcases h with h | ⟨-, h⟩
    · linarith
    · omega

/-- An integer within one half is a nearest one, and only a tie has a second. -/
theorem abs_sub_le_of_abs_sub_le_half {x : ℚ} {r : Int} (h : |x - r| ≤ 1 / 2) (k : Int) :
    |x - r| ≤ |x - k| ∧ (|x - r| = |x - k| → k = r ∨ |x - r| = 1 / 2) := by
  rcases eq_or_ne k r with rfl | hne
  · exact ⟨le_rfl, fun _ => .inl rfl⟩
  · have hgap : (1 : ℚ) ≤ |(r : ℚ) - k| := by
      exact_mod_cast Int.one_le_abs (sub_ne_zero.2 hne.symm)
    have htri := abs_sub_le (r : ℚ) x k
    rw [abs_sub_comm (r : ℚ) x] at htri
    exact ⟨by linarith, fun he => .inr (by linarith)⟩

/-- The quotient in the quantum of `num / den`: the significand before it is rounded. -/
theorem significand_bounds (num den : Nat) :
    num / (den * 2 ^ quantum num den) < 2 ^ 24 ∧
    (quantum num den = 0 ∨ 2 ^ 23 ≤ num / (den * 2 ^ quantum num den)) := by
  rw [← Nat.div_div_eq_div_mul]
  unfold quantum
  generalize num / den = n
  rcases eq_or_ne n 0 with rfl | hn
  · simp
  have hlow := Nat.log2_self_le hn
  have hhigh := Nat.lt_log2_self (n := n)
  refine ⟨(Nat.div_lt_iff_lt_mul (by positivity)).2 (hhigh.trans_le ?_), ?_⟩
  · rw [← pow_add]; exact Nat.pow_le_pow_right two_pos (by omega)
  · rcases Nat.lt_or_ge 23 n.log2 with h | h
    · refine .inr ((Nat.le_div_iff_mul_le (by positivity)).2 (le_trans (le_of_eq ?_) hlow))
      rw [← pow_add]; congr 1; omega
    · exact .inl (Nat.sub_eq_zero_of_le h)

/-- A nearest integer to `y`, at ties an even one, is in the quantum `2^t` a nearest magnitude to `y * 2^t`, as long as the significand of `y` fills 24 bits or the quantum is one unit. -/
theorem significand_nearest {y : ℚ} {t r : Nat} (hy : t = 0 ∨ (2 : ℚ) ^ 23 ≤ y) (hle : |y - r| ≤ 1 / 2)
    (heven : |y - r| = 1 / 2 → r % 2 = 0) (m : Nat) :
    |y * 2 ^ t - (r * 2 ^ t : Nat)| ≤ |y * 2 ^ t - magUnits m| ∧
    (|y * 2 ^ t - (r * 2 ^ t : Nat)| = |y * 2 ^ t - magUnits m| → magUnits m = r * 2 ^ t ∨ r % 2 = 0) := by
  have hscale : (0 : ℚ) < 2 ^ t := by positivity
  have hdist (k : Nat) : |y * 2 ^ t - (k * 2 ^ t : Nat)| = |y - (k : Int)| * 2 ^ t := by
    rw [← abs_of_pos hscale, ← abs_mul, abs_of_pos hscale, sub_mul]; push_cast; rfl
  have hnear (k : Nat) := abs_sub_le_of_abs_sub_le_half (x := y) (r := r) (by exact_mod_cast hle) k
  rcases dvd_magUnits_or_lt t m with ⟨k, hk⟩ | ⟨hbelow, hpos⟩
  · obtain ⟨hrk, htie⟩ := hnear k
    rw [hk, mul_comm (2 ^ t) k, hdist, hdist]
    refine ⟨mul_le_mul_of_nonneg_right hrk hscale.le, fun he => ?_⟩
    rcases htie (mul_right_cancel₀ hscale.ne' he) with hkr | hhalf
    · exact .inl (by rw [Int.ofNat_inj.1 hkr])
    · exact .inr (heven (by exact_mod_cast hhalf))
  · have hy' : (2 ^ 23 : Nat) * 2 ^ t ≤ y * 2 ^ t :=
      mul_le_mul_of_nonneg_right (by exact_mod_cast hy.resolve_left hpos.ne') hscale.le
    have hbelow' : (magUnits m : ℚ) < (2 ^ 23 : Nat) * 2 ^ t := by exact_mod_cast hbelow
    have hlt : |y * 2 ^ t - (r * 2 ^ t : Nat)| < |y * 2 ^ t - magUnits m| := by
      calc |y * 2 ^ t - (r * 2 ^ t : Nat)| = |y - (r : Int)| * 2 ^ t := hdist r
        _ ≤ |y - (2 ^ 23 : Nat)| * 2 ^ t := mul_le_mul_of_nonneg_right (hnear (2 ^ 23)).1 hscale.le
        _ = y * 2 ^ t - (2 ^ 23 : Nat) * 2 ^ t := by
          rw [abs_of_nonneg (sub_nonneg.2 (le_of_mul_le_mul_right hy' hscale)), sub_mul]
        _ < y * 2 ^ t - magUnits m := by linarith
        _ ≤ |y * 2 ^ t - magUnits m| := le_abs_self _
    exact ⟨hlt.le, fun he => absurd he hlt.ne⟩

/-- The significand of `num / den` units, rounded. -/
def significand (num den : Nat) : Nat := roundHalfEven num (den * 2 ^ quantum num den)

/-- The bits of `num / den` units rounded to a significand of 24 bits, before overflow is looked for. -/
def roundBits (num den : Nat) : Nat := quantum num den * 2 ^ 23 + significand num den

theorem roundUnits_eq_min (num den : Nat) : roundUnits num den = min (roundBits num den) 0x7F800000 := rfl

/-- The significand before it is rounded: the quotient by the quantum. -/
theorem div_eq_div_mul_quantum (num den : Nat) :
    (num : ℚ) / den = num / (den * 2 ^ quantum num den : Nat) * 2 ^ quantum num den := by
  push_cast
  rw [← div_div, div_mul_cancel₀ _ (by positivity)]

theorem significand_le (num den : Nat) : significand num den ≤ 2 ^ 24 := by
  have := roundHalfEven_eq_or num (den * 2 ^ quantum num den)
  have := (significand_bounds num den).1
  unfold significand
  omega

theorem magUnits_roundBits (num den : Nat) :
    magUnits (roundBits num den) = significand num den * 2 ^ quantum num den := by
  have := roundHalfEven_eq_or num (den * 2 ^ quantum num den)
  have := (significand_bounds num den).2
  exact magUnits_significand (significand_le num den) (by unfold significand; omega)

/-- No magnitude is nearer than the rounded one, and where another is as near the rounded one is even. -/
theorem roundBits_nearest (num : Nat) {den : Nat} (hd : 0 < den) (m : Nat) :
    |(num : ℚ) / den - magUnits (roundBits num den)| ≤ |(num : ℚ) / den - magUnits m| ∧
    (|(num : ℚ) / den - magUnits (roundBits num den)| = |(num : ℚ) / den - magUnits m| →
      m = roundBits num den ∨ roundBits num den % 2 = 0) := by
  have hden : 0 < den * 2 ^ quantum num den := by positivity
  have hfull : quantum num den = 0 ∨ (2 : ℚ) ^ 23 ≤ num / (den * 2 ^ quantum num den : Nat) :=
    (significand_bounds num den).2.imp_right fun h => le_trans (by exact_mod_cast h) Nat.cast_div_le
  obtain ⟨hle, htie⟩ := significand_nearest hfull (abs_sub_roundHalfEven_le num hden)
    (roundHalfEven_even_of_tie num hden) m
  rw [magUnits_roundBits, div_eq_div_mul_quantum num den]
  refine ⟨hle, fun he => (htie he).imp (fun h => ?_) fun h => ?_⟩
  · exact magUnits_strictMono.injective (h.trans (magUnits_roundBits num den).symm)
  · unfold roundBits significand
    omega

/-- `∞` in units, as if the exponent went on. -/
theorem magUnits_infinity : magUnits 0x7F800000 = 2 ^ 24 * 2 ^ 253 :=
  magUnits_significand (t := 253) le_rfl (.inr (by decide))

theorem magUnits_largest : magUnits 0x7F7FFFFF = (2 ^ 24 - 1) * 2 ^ 253 :=
  magUnits_significand (t := 253) (r := 2 ^ 24 - 1) (by decide) (.inr (by decide))

/-- Overflow begins at the halfway point above the largest finite value, whose bits are odd. -/
theorem infinity_le_roundBits_iff (num : Nat) {den : Nat} (hd : 0 < den) :
    0x7F800000 ≤ roundBits num den ↔ ((2 : ℚ) ^ 24 - 1 / 2) * 2 ^ 253 ≤ num / den := by
  have hinf : (magUnits 0x7F800000 : ℚ) = 2 ^ 24 * 2 ^ 253 := by rw [magUnits_infinity]; norm_num
  have hlargest : (magUnits 0x7F7FFFFF : ℚ) = (2 ^ 24 - 1) * 2 ^ 253 := by rw [magUnits_largest]; norm_num
  have hmono {m m' : Nat} (h : m ≤ m') : (magUnits m : ℚ) ≤ magUnits m' := by
    exact_mod_cast magUnits_strictMono.monotone h
  obtain ⟨hleLargest, -⟩ := roundBits_nearest num hd 0x7F7FFFFF
  obtain ⟨hleInf, htieInf⟩ := roundBits_nearest num hd 0x7F800000
  generalize roundBits num den = m at *
  generalize (num : ℚ) / den = x at *
  rw [hlargest] at hleLargest
  rw [hinf] at hleInf htieInf
  constructor
  · intro hm
    have := hmono hm
    rw [hinf] at this
    by_contra! hx
    rw [abs_of_nonpos (by linarith), le_abs'] at hleLargest
    rcases hleLargest with h | h <;> linarith
  · intro hx
    by_contra! hm
    have hmL := hmono (Nat.le_of_lt_succ hm)
    rw [hlargest] at hmL
    have hdist : |x - 2 ^ 24 * 2 ^ 253| ≤ x - magUnits m := abs_le.2 ⟨by linarith, by linarith⟩
    rw [abs_of_nonneg (by linarith)] at hleInf htieInf
    have hlast : magUnits m = magUnits 0x7F7FFFFF := by
      have : (magUnits m : ℚ) = magUnits 0x7F7FFFFF := by
        rw [hlargest]
        rcases le_abs'.1 hleInf with h | h <;> linarith
      exact_mod_cast this
    obtain rfl := magUnits_strictMono.injective hlast
    rcases htieInf (le_antisymm hleInf hdist) with h | h <;> omega

/-- A number of units that is a whole number of its quantum is not rounded. -/
theorem magUnits_roundBits_exact {k t : Nat} (hk : k < 2 ^ 24) : magUnits (roundBits (k * 2 ^ t) 1) = k * 2 ^ t := by
  have hq : quantum (k * 2 ^ t) 1 ≤ t := by
    unfold quantum
    rw [Nat.div_one]
    rcases eq_or_ne (k * 2 ^ t) 0 with h0 | h0
    · simp [h0]
    · have : (k * 2 ^ t).log2 < 24 + t := (Nat.log2_lt h0).2 (by
        rw [pow_add]; exact Nat.mul_lt_mul_of_pos_right hk (by positivity))
      omega
  have hdvd : 2 ^ quantum (k * 2 ^ t) 1 ∣ k * 2 ^ t := Dvd.dvd.mul_left (pow_dvd_pow 2 hq) k
  rw [magUnits_roundBits, significand, one_mul, roundHalfEven_of_dvd (by positivity) hdvd]
  exact Nat.div_mul_cancel hdvd

end Sys2Proof.Machine
end

section
/-! SUPPORT. What a binary32 value is in its sign and magnitude bits (R11, R12): its class, its number, and the correct rounding of a packed result. -/

namespace Sys2Proof.Machine

theorem isNeg_eq_getLsbD (x : F32) : isNeg x = x.getLsbD 31 := by
  rw [← BitVec.msb_eq_getLsbD_last, BitVec.msb_eq_decide]; rfl

theorem isInf_iff {x : F32} : isInf x = true ↔ magBits x = 0x7F800000 := decide_eq_true_iff

theorem isFinite_iff {x : F32} : isFinite x = true ↔ magBits x < 0x7F800000 := by
  simp only [isFinite, isNaN, isInf, Bool.and_eq_true, Bool.not_eq_true', decide_eq_false_iff_not]
  omega

theorem isFinite_eq_true_iff {x : F32} : isFinite x = true ↔ isNaN x = false ∧ isInf x = false := by
  simp [isFinite]

theorem isNaN_of_isFinite {x : F32} (h : isFinite x = true) : isNaN x = false := (isFinite_eq_true_iff.1 h).1

theorem isNaN_of_isInf {x : F32} (h : isInf x = true) : isNaN x = false := by
  simp [isNaN, isInf_iff.1 h]

/-- Sign and magnitude bits determine the value. -/
theorem eq_of_isNeg_of_magBits {x y : F32} (hs : isNeg x = isNeg y) (hm : magBits x = magBits y) : x = y := by
  rw [← pack_isNeg_magBits x, ← pack_isNeg_magBits y, hs, hm]

theorem isFinite_pack {neg : Bool} {m : Nat} (h : m < 0x7F800000) : isFinite (pack neg m) = true := by
  rw [isFinite_iff, magBits_pack (by omega)]; exact h

theorem isInf_pack {neg : Bool} {m : Nat} (h : m < 2 ^ 31) : isInf (pack neg m) = decide (m = 0x7F800000) := by
  rw [isInf, magBits_pack h]

theorem getLsbD_zero_pack {neg : Bool} {m : Nat} (h : m < 2 ^ 31) : (pack neg m).getLsbD 0 = decide (m % 2 = 1) := by
  rw [← BitVec.testBit_toNat, pack_toNat h, Nat.testBit_zero, decide_eq_decide]
  cases neg
  · rw [if_neg Bool.false_ne_true, Nat.zero_add]
  · rw [if_pos rfl]; omega

theorem finf_eq_infinity (neg : Bool) : finf neg = infinity neg := by cases neg <;> decide

theorem fzero_eq_signedZero (neg : Bool) : fzero neg = signedZero neg := by cases neg <;> decide

/-- An infinity is the one of its sign. -/
theorem eq_infinity_of_isInf {x : F32} (h : isInf x = true) : x = infinity (isNeg x) := by
  rw [← finf_eq_infinity, finf, ← isInf_iff.1 h, pack_isNeg_magBits]

/-- The factor a sign bit stands for. -/
def signFactor (neg : Bool) : ℚ := if neg then -1 else 1

@[simp] theorem signFactor_false : signFactor false = 1 := rfl
@[simp] theorem signFactor_true : signFactor true = -1 := rfl

@[simp] theorem abs_signFactor (neg : Bool) : |signFactor neg| = 1 := by cases neg <;> simp

theorem signFactor_not (neg : Bool) : signFactor (!neg) = -signFactor neg := by cases neg <;> simp

theorem signFactor_bne (a b : Bool) : signFactor (a != b) = signFactor a * signFactor b := by
  cases a <;> cases b <;> simp

theorem signFactor_div (a b : Bool) : signFactor a / signFactor b = signFactor a * signFactor b := by
  cases a <;> cases b <;> simp

theorem signFactor_mul_self (neg : Bool) : signFactor neg * signFactor neg = 1 := by cases neg <;> simp

/-- The number of a value in terms of the model's units, whatever the fields say of a NaN or an infinity. -/
theorem value_eq (x : F32) : value x = signFactor (isNeg x) * (units x / 2 ^ 149) := by
  have hx := x.isLt
  have hexp : (x.extractLsb' 23 8).toNat = magBits x / 2 ^ 23 := by
    rw [BitVec.extractLsb'_toNat, Nat.shiftRight_eq_div_pow, magBits]; omega
  have hfrac : (x.extractLsb' 0 23).toNat = magBits x % 2 ^ 23 := by
    rw [BitVec.extractLsb'_toNat, Nat.shiftRight_zero, magBits]; omega
  unfold value units signFactor
  simp only [← isNeg_eq_getLsbD, hexp, hfrac]
  congr 1
  split
  · rfl
  next he =>
    obtain ⟨e, he⟩ := Nat.exists_eq_succ_of_ne_zero he
    rw [he, Nat.succ_sub_one, pow_succ _ e, pow_succ _ 149]
    push_cast
    rw [← mul_assoc, mul_div_mul_right _ _ two_ne_zero]

theorem abs_value (x : F32) : |value x| = units x / 2 ^ 149 := by
  rw [value_eq, abs_mul, abs_signFactor, one_mul, abs_of_nonneg (by positivity)]

theorem value_pack {neg : Bool} {m : Nat} (h : m < 2 ^ 31) :
    value (pack neg m) = signFactor neg * (magUnits m / 2 ^ 149) := by
  rw [value_eq, isNeg_pack h, units_eq_magUnits, magBits_pack h]

theorem value_eq_sunits (x : F32) : value x = sunits x / 2 ^ 149 := by
  rw [value_eq, sunits]
  cases isNeg x <;> simp [neg_div]

theorem value_eq_zero_iff {x : F32} : value x = 0 ↔ magBits x = 0 := by
  rw [← abs_eq_zero, abs_value, units_eq_magUnits]
  simp

/-- A finite value is given by its sign and its number. -/
theorem eq_of_isNeg_of_value {x y : F32} (hs : isNeg x = isNeg y) (hv : value x = value y) : x = y := by
  refine eq_of_isNeg_of_magBits hs (magUnits_strictMono.injective ?_)
  have := congrArg abs hv
  rw [abs_value, abs_value, div_left_inj' (by positivity)] at this
  exact_mod_cast this

/-- Two numbers on one side of zero are as far apart as their magnitudes. -/
theorem abs_sub_eq_abs_abs_sub_abs {x v : ℚ} (h : 0 ≤ x ∧ 0 ≤ v ∨ x ≤ 0 ∧ v ≤ 0) : |x - v| = |(|x| - |v|)| := by
  rcases h with ⟨hx, hv⟩ | ⟨hx, hv⟩
  · rw [abs_of_nonneg hx, abs_of_nonneg hv]
  · rw [abs_of_nonpos hx, abs_of_nonpos hv, neg_sub_neg, abs_sub_comm]

/-- If `v` is on the side of `x`, and the magnitude of `w` is no nearer to that of `x` than the magnitude of `v` is, then `w` is no nearer to `x` than `v`; and where it is as near, so is its magnitude. -/
theorem abs_sub_le_of_abs_abs {x v w : ℚ} (h : 0 ≤ x ∧ 0 ≤ v ∨ x ≤ 0 ∧ v ≤ 0) (hle : |(|x| - |v|)| ≤ |(|x| - |w|)|) :
    |x - v| ≤ |x - w| ∧ (|x - v| = |x - w| → |(|x| - |v|)| = |(|x| - |w|)|) := by
  rw [abs_sub_eq_abs_abs_sub_abs h]
  have := abs_abs_sub_abs_le x w
  exact ⟨hle.trans this, fun he => le_antisymm hle (by rw [he]; exact this)⟩

/-- The rounded magnitude is a nearest one in the scale of the numbers. -/
theorem roundBits_nearest_scaled {a : ℚ} {num den : Nat} (hd : 0 < den) (ha : a = num / den / 2 ^ 149) (m : Nat) :
    |a - magUnits (roundBits num den) / 2 ^ 149| ≤ |a - magUnits m / 2 ^ 149| ∧
    (|a - magUnits (roundBits num den) / 2 ^ 149| = |a - magUnits m / 2 ^ 149| →
      m = roundBits num den ∨ roundBits num den % 2 = 0) := by
  have hscale (z : ℚ) : |a - z / 2 ^ 149| = |(num : ℚ) / den - z| / 2 ^ 149 := by
    rw [ha, ← sub_div, abs_div, abs_of_pos (show (0 : ℚ) < 2 ^ 149 by positivity)]
  rw [hscale, hscale, div_le_div_iff_of_pos_right (by positivity), div_left_inj' (by positivity)]
  exact roundBits_nearest num hd m

/-- Two numbers of one magnitude, as far from `x`, are equal unless `x` is zero. -/
theorem eq_of_abs_eq_of_abs_sub_eq {x v w : ℚ} (hx : x ≠ 0) (habs : |w| = |v|) (hdist : |x - v| = |x - w|) : w = v := by
  rcases abs_eq_abs.1 habs with h | h
  · exact h
  · rw [h, sub_neg_eq_add] at hdist
    rcases abs_eq_abs.1 hdist with h' | h'
    · linarith
    · exact absurd (by linarith) hx

/-- A packed magnitude that did not overflow is a nearest value, ties to even. -/
theorem pack_roundBits_nearest {x : ℚ} {neg : Bool} {num den : Nat} (hd : 0 < den)
    (hneg : x ≠ 0 → neg = decide (x < 0)) (hx : |x| = num / den / 2 ^ 149) (hm : roundBits num den < 2 ^ 31) (y : F32) :
    |x - value (pack neg (roundBits num den))| ≤ |x - value y| ∧
    (|x - value (pack neg (roundBits num den))| = |x - value y| →
      value y = value (pack neg (roundBits num den)) ∨ (pack neg (roundBits num den)).getLsbD 0 = false) := by
  have hnear := roundBits_nearest_scaled hd hx
  have hval := value_pack (neg := neg) hm
  have habs : |value (pack neg (roundBits num den))| = magUnits (roundBits num den) / 2 ^ 149 := by
    rw [abs_value, units_eq_magUnits, magBits_pack hm]
  have hnonneg : (0 : ℚ) ≤ magUnits (roundBits num den) / 2 ^ 149 := by positivity
  have hside : 0 ≤ x ∧ 0 ≤ value (pack neg (roundBits num den)) ∨ x ≤ 0 ∧ value (pack neg (roundBits num den)) ≤ 0 := by
    rw [hval]
    rcases lt_trichotomy x 0 with h | rfl | h
    · exact .inr ⟨h.le, by simpa [hneg h.ne, h] using hnonneg⟩
    · cases neg
      · exact .inl ⟨le_rfl, by simpa using hnonneg⟩
      · exact .inr ⟨le_rfl, by simpa using hnonneg⟩
    · exact .inl ⟨h.le, by simpa [hneg h.ne', h.not_gt] using hnonneg⟩
  rw [← habs] at hnear
  generalize value (pack neg (roundBits num den)) = v at *
  obtain ⟨hle, htie⟩ := hnear (magBits y)
  rw [← units_eq_magUnits, ← abs_value] at hle htie
  obtain ⟨hdist, hmagTie⟩ := abs_sub_le_of_abs_abs hside hle
  refine ⟨hdist, fun he => ?_⟩
  rw [getLsbD_zero_pack hm, decide_eq_false_iff_not]
  rcases htie (hmagTie he) with hy | heven
  · left
    have hyv : |value y| = |v| := by rw [habs, abs_value, units_eq_magUnits, hy]
    rcases eq_or_ne x 0 with rfl | hx0
    · have hv : |v| ≤ 0 := by simpa using (hnear 0).1
      rw [abs_nonpos_iff.1 hv, ← abs_eq_zero, hyv]
      exact le_antisymm hv (abs_nonneg v)
    · exact eq_of_abs_eq_of_abs_sub_eq hx0 hyv he
  · exact .inr (by omega)

/-- Sign and rounded magnitude packed are the correctly rounded result, when the magnitude is that of `x` in units. -/
theorem roundsTo_pack {x : ℚ} {zeroNeg neg : Bool} {num den : Nat} (hd : 0 < den)
    (hneg : neg = if x = 0 then zeroNeg else decide (x < 0)) (hx : |x| = num / den / 2 ^ 149) :
    RoundsTo x zeroNeg (pack neg (roundUnits num den)) := by
  have hm : roundUnits num den < 2 ^ 31 := (roundUnits_le num den).trans_lt (by decide)
  have hover := infinity_le_roundBits_iff num hd
  have hmin := roundUnits_eq_min num den
  have hdiv : (num : ℚ) / den = |x| * 2 ^ 149 := by rw [hx, div_mul_cancel₀ _ (by positivity)]
  rw [hdiv] at hover
  refine ⟨isNaN_pack_roundUnits neg num den, by rw [isNeg_pack hm, hneg], fun hlarge => ?_, fun hsmall => ?_⟩
  · have : 0x7F800000 ≤ roundBits num den := hover.2 (by linarith)
    rw [isInf_pack hm, hmin, min_eq_right this, decide_eq_true rfl]
  · have hbits : roundBits num den < 0x7F800000 := by
      by_contra! h
      have := hover.1 h
      linarith
    rw [hmin, min_eq_left hbits.le] at hm ⊢
    exact ⟨by rw [isInf_pack hm, decide_eq_false hbits.ne],
      fun y _ => pack_roundBits_nearest hd (fun h => by rw [hneg, if_neg h]) hx hm y⟩

/-- A number of units that binary32 holds: a significand of 24 bits and a quantum in the exponent's range. -/
def Representable (n : Nat) : Prop := ∃ k t, k < 2 ^ 24 ∧ t ≤ 253 ∧ n = k * 2 ^ t

theorem representable_units {x : F32} (h : isFinite x = true) : Representable (units x) := by
  rw [isFinite_iff] at h
  obtain ⟨t, r, hm, hr, ht⟩ := exists_significand (magBits x)
  exact ⟨r, t, hr, by omega, by rw [units_eq_magUnits, hm, magUnits_significand hr.le ht]⟩

/-- A representable magnitude is packed as it is (R13: `floor` and `fmod` are exact). -/
theorem pack_roundUnits_exact (neg : Bool) {n : Nat} (h : Representable n) :
    isFinite (pack neg (roundUnits n 1)) = true ∧ isNeg (pack neg (roundUnits n 1)) = neg ∧
      value (pack neg (roundUnits n 1)) = signFactor neg * (n / 2 ^ 149) := by
  obtain ⟨k, t, hk, ht, rfl⟩ := h
  have hmag := magUnits_roundBits_exact (t := t) hk
  have hbits : roundBits (k * 2 ^ t) 1 < 0x7F800000 := by
    rw [← magUnits_strictMono.lt_iff_lt, hmag, magUnits_infinity]
    exact Nat.mul_lt_mul_of_lt_of_le hk (Nat.pow_le_pow_right two_pos ht) (by positivity)
  rw [roundUnits_eq_min, min_eq_left hbits.le]
  exact ⟨isFinite_pack hbits, isNeg_pack (by omega), by rw [value_pack (by omega), hmag]⟩

end Sys2Proof.Machine
end

section
/-! SUPPORT. The arithmetic operations on finite operands (R12, R13): the number each rounds, or has exactly. -/

namespace Sys2Proof.Machine

@[simp] theorem magBits_flipSign (x : F32) : magBits (flipSign x) = magBits x := by
  refine Nat.eq_of_testBit_eq fun i => ?_
  rw [magBits, magBits, flipSign, BitVec.toNat_xor, Nat.testBit_mod_two_pow, Nat.testBit_mod_two_pow, Nat.testBit_xor,
    show (0x80000000#32).toNat = 2 ^ 31 from rfl, Nat.testBit_two_pow]
  by_cases hi : i < 31
  · simp [hi, hi.ne']
  · simp [hi]

@[simp] theorem isNeg_flipSign (x : F32) : isNeg (flipSign x) = !isNeg x := by
  rw [isNeg_eq_getLsbD, isNeg_eq_getLsbD, flipSign, BitVec.getLsbD_xor, show (0x80000000#32).getLsbD 31 = true from rfl,
    Bool.xor_true]

@[simp] theorem isNaN_flipSign (x : F32) : isNaN (flipSign x) = isNaN x := by
  rw [isNaN, magBits_flipSign, isNaN]

@[simp] theorem isInf_flipSign (x : F32) : isInf (flipSign x) = isInf x := by
  rw [isInf, magBits_flipSign, isInf]

@[simp] theorem isFinite_flipSign (x : F32) : isFinite (flipSign x) = isFinite x := by
  rw [isFinite, isNaN_flipSign, isInf_flipSign, isFinite]

theorem value_flipSign (x : F32) : value (flipSign x) = -value x := by
  rw [value_eq, value_eq, isNeg_flipSign, units_eq_magUnits, magBits_flipSign, units_eq_magUnits, signFactor_not, neg_mul]

theorem fadd_of_isFinite (d : Nat) {a b : F32} (ha : isFinite a = true) (hb : isFinite b = true) :
    fadd d a b = if sunits a + sunits b = 0 then fzero (isNeg a && isNeg b)
      else pack (decide (sunits a + sunits b < 0)) (roundUnits (sunits a + sunits b).natAbs 1) := by
  rw [isFinite_eq_true_iff] at ha hb
  simp [fadd, ha, hb]

theorem fmul_of_isFinite (d : Nat) {a b : F32} (ha : isFinite a = true) (hb : isFinite b = true) :
    fmul d a b = pack (isNeg a != isNeg b) (roundUnits (units a * units b) (2 ^ 149)) := by
  rw [isFinite_eq_true_iff] at ha hb
  simp [fmul, ha, hb]

theorem fdiv_of_isFinite (d : Nat) {a b : F32} (ha : isFinite a = true) (hb : isFinite b = true) (h0 : magBits b ≠ 0) :
    fdiv d a b = pack (isNeg a != isNeg b) (roundUnits (units a * 2 ^ 149) (units b)) := by
  rw [isFinite_eq_true_iff] at ha hb
  simp [fdiv, ha, hb, h0]

theorem ffloor_of_isFinite (d : Nat) {a : F32} (ha : isFinite a = true) :
    ffloor d a = pack (isNeg a) (roundUnits ((sunits a / (2 ^ 149 : Int)).natAbs * 2 ^ 149) 1) := by
  rw [isFinite_eq_true_iff] at ha
  simp [ffloor, ha]

theorem ffmod_of_isFinite (d : Nat) {a b : F32} (ha : isFinite a = true) (hb : isFinite b = true) (h0 : magBits b ≠ 0) :
    ffmod d a b = pack (isNeg a) (roundUnits (units a % units b) 1) := by
  rw [isFinite_eq_true_iff] at ha hb
  simp [ffmod, ha, hb, h0]

theorem roundUnits_zero : roundUnits 0 1 = 0 := by decide

theorem roundsTo_fadd (d : Nat) {a b : F32} (ha : isFinite a = true) (hb : isFinite b = true) :
    RoundsTo (value a + value b) (isNeg a && isNeg b) (fadd d a b) := by
  rw [fadd_of_isFinite d ha hb, value_eq_sunits, value_eq_sunits, ← add_div, ← Int.cast_add]
  generalize sunits a + sunits b = s
  split
  next h0 =>
    rw [h0, fzero, ← roundUnits_zero]
    exact roundsTo_pack one_pos (by simp) (by simp)
  next h0 =>
    have hscale : (0 : ℚ) < 2 ^ 149 := by positivity
    refine roundsTo_pack one_pos ?_ ?_
    · have : (s : ℚ) / 2 ^ 149 ≠ 0 := div_ne_zero (Int.cast_ne_zero.2 h0) hscale.ne'
      rw [if_neg this, decide_eq_decide, div_lt_iff₀ hscale, zero_mul, Int.cast_lt_zero]
    · rw [abs_div, abs_of_pos hscale, Nat.cast_one, div_one, Nat.cast_natAbs, Int.cast_abs]

theorem roundsTo_fsub (d : Nat) {a b : F32} (ha : isFinite a = true) (hb : isFinite b = true) :
    RoundsTo (value a - value b) (isNeg a && !isNeg b) (fsub d a b) := by
  rw [sub_eq_add_neg, ← value_flipSign, ← isNeg_flipSign]
  exact roundsTo_fadd d ha (by rw [isFinite_flipSign, hb])

/-- The sign of a product or quotient of magnitudes that is not zero. -/
theorem bne_eq_decide_neg {a b : Bool} {x : ℚ} {r : ℚ} (hr : 0 ≤ r) (hx : x = signFactor (a != b) * r) :
    (a != b) = if x = 0 then (a != b) else decide (x < 0) := by
  split
  next => rfl
  next h0 =>
    have hpos : 0 < r := hr.lt_of_ne fun h => h0 (by rw [hx, ← h, mul_zero])
    rw [hx]
    cases a != b
    · simpa using hpos.le
    · simpa using hpos

theorem roundsTo_fmul (d : Nat) {a b : F32} (ha : isFinite a = true) (hb : isFinite b = true) :
    RoundsTo (value a * value b) (isNeg a != isNeg b) (fmul d a b) := by
  rw [fmul_of_isFinite d ha hb]
  have hval : value a * value b = signFactor (isNeg a != isNeg b) * (units a / 2 ^ 149 * (units b / 2 ^ 149)) := by
    rw [value_eq, value_eq, signFactor_bne]; ring
  refine roundsTo_pack (by positivity) (bne_eq_decide_neg (by positivity) hval) ?_
  rw [abs_mul, abs_value, abs_value, Nat.cast_mul, Nat.cast_pow, Nat.cast_ofNat, div_mul_div_comm, div_div]

theorem value_div_value (a b : F32) :
    value a / value b = signFactor (isNeg a != isNeg b) * (units a / units b) := by
  rw [value_eq, value_eq, signFactor_bne, mul_div_mul_comm, div_div_div_cancel_right₀ (by positivity), signFactor_div]

theorem units_ne_zero {x : F32} (h : value x ≠ 0) : units x ≠ 0 := by
  rw [units_eq_magUnits, ne_eq, magUnits_eq_zero]
  exact mt value_eq_zero_iff.2 h

theorem roundsTo_fdiv (d : Nat) {a b : F32} (ha : isFinite a = true) (hb : isFinite b = true) (h0 : value b ≠ 0) :
    RoundsTo (value a / value b) (isNeg a != isNeg b) (fdiv d a b) := by
  have hval := value_div_value a b
  rw [fdiv_of_isFinite d ha hb (mt value_eq_zero_iff.2 h0)]
  refine roundsTo_pack (Nat.pos_of_ne_zero (units_ne_zero h0)) (bne_eq_decide_neg (by positivity) hval) ?_
  rw [hval, abs_mul, abs_signFactor, one_mul, abs_of_nonneg (by positivity), Nat.cast_mul, Nat.cast_pow, Nat.cast_ofNat, div_right_comm,
    mul_div_cancel_right₀ _ (by positivity)]

theorem roundsTo_u32ToF32 (k : BitVec 32) : RoundsTo (k.toNat : ℚ) false (u32ToF32 k) := by
  have hk : (0 : ℚ) ≤ k.toNat := by positivity
  refine roundsTo_pack one_pos (by simp [hk.not_gt]) ?_
  rw [abs_of_nonneg hk, Nat.cast_mul, Nat.cast_pow, Nat.cast_ofNat, Nat.cast_one, div_one,
    mul_div_cancel_right₀ _ (by positivity)]

end Sys2Proof.Machine
end

section
/-! SUPPORT. `floor` and `fmod` are exact (R13). -/

namespace Sys2Proof.Machine

/-- The remainder of two representable numbers of units is one: it is a multiple of the smaller quantum and under both significands. -/
theorem Representable.mod {m n : Nat} (hm : Representable m) (hn : Representable n) (h0 : n ≠ 0) : Representable (m % n) := by
  obtain ⟨k, t, hk, ht, rfl⟩ := hm
  obtain ⟨l, u, hl, hu, rfl⟩ := hn
  rcases Nat.le_total u t with h | h
  · refine ⟨k * 2 ^ (t - u) % l, u, (Nat.mod_lt _ ?_).trans hl, hu, ?_⟩
    · exact Nat.pos_of_ne_zero (left_ne_zero_of_mul h0)
    · rw [← Nat.mul_mod_mul_right, mul_assoc, ← pow_add, Nat.sub_add_cancel h]
  · refine ⟨k % (l * 2 ^ (u - t)), t, (Nat.mod_le _ _).trans_lt hk, ht, ?_⟩
    rw [← Nat.mul_mod_mul_right, mul_assoc, ← pow_add, Nat.sub_add_cancel h]

theorem natAbs_sunits (x : F32) : (sunits x).natAbs = units x := by
  unfold sunits; split <;> simp

theorem sunits_nonneg {x : F32} (h : isNeg x = false) : 0 ≤ sunits x := by simp [sunits, h]

theorem sunits_nonpos {x : F32} (h : isNeg x = true) : sunits x ≤ 0 := by simp [sunits, h]

/-- A finite value rounded down to an integer is representable: it keeps a significand with units of 1.0 or more, and else is an integer no larger than the significand. -/
theorem representable_floor {x : F32} (h : isFinite x = true) :
    Representable ((sunits x / (2 ^ 149 : Int)).natAbs * 2 ^ 149) := by
  obtain ⟨k, t, hk, ht, hn⟩ := representable_units h
  rcases Nat.le_total 149 t with hle | hle
  · have hdvd : (2 ^ 149 : Int) ∣ sunits x := by
      rw [← Int.natAbs_dvd_natAbs, natAbs_sunits, hn, Int.natAbs_pow]
      exact Dvd.dvd.mul_left (pow_dvd_pow 2 hle) k
    have : (sunits x / (2 ^ 149 : Int)).natAbs * 2 ^ 149 = units x := by
      rw [← natAbs_sunits, ← Int.ediv_mul_cancel hdvd, Int.natAbs_mul, Int.natAbs_pow, Int.ediv_mul_cancel hdvd]; rfl
    rw [this]
    exact ⟨k, t, hk, ht, hn⟩
  · have hbound : |sunits x| ≤ k * 2 ^ 149 := by
      rw [Int.abs_eq_natAbs, natAbs_sunits, hn]
      exact_mod_cast Nat.mul_le_mul_left k (Nat.pow_le_pow_right two_pos hle)
    obtain ⟨hlow, hhigh⟩ := abs_le.1 hbound
    have hz : |sunits x / (2 ^ 149 : Int)| ≤ k :=
      abs_le.2 ⟨(Int.le_ediv_iff_mul_le (by positivity)).2 (by rwa [neg_mul]),
        Int.ediv_le_of_le_mul (by positivity) hhigh⟩
    exact ⟨_, 149, by omega, by omega, rfl⟩

theorem floor_value (x : F32) : ⌊value x⌋ = sunits x / (2 ^ 149 : Int) := by
  rw [value_eq_sunits]
  exact_mod_cast Rat.floor_intCast_div_natCast (sunits x) (2 ^ 149)

theorem signFactor_mul_natAbs_floor (x : F32) : signFactor (isNeg x) * ((⌊value x⌋.natAbs : Nat) : ℚ) = ⌊value x⌋ := by
  rw [floor_value, Nat.cast_natAbs, Int.cast_abs]
  cases h : isNeg x
  · have : 0 ≤ sunits x / (2 ^ 149 : Int) := Int.ediv_nonneg (sunits_nonneg h) (by positivity)
    rw [signFactor_false, one_mul, abs_of_nonneg (Int.cast_nonneg this)]
  · have : sunits x / (2 ^ 149 : Int) ≤ 0 := Int.ediv_nonpos_of_nonpos_of_neg (sunits_nonpos h) (by positivity)
    rw [signFactor_true, abs_of_nonpos (Int.cast_nonpos.2 this), neg_one_mul, neg_neg]

theorem ffloor_exact (d : Nat) {a : F32} (ha : isFinite a = true) :
    isFinite (ffloor d a) = true ∧ isNeg (ffloor d a) = isNeg a ∧ value (ffloor d a) = ⌊value a⌋ := by
  obtain ⟨hfin, hneg, hval⟩ := pack_roundUnits_exact (isNeg a) (representable_floor ha)
  rw [ffloor_of_isFinite d ha]
  refine ⟨hfin, hneg, ?_⟩
  rw [hval, ← floor_value, ← signFactor_mul_natAbs_floor, Nat.cast_mul, Nat.cast_pow, Nat.cast_ofNat,
    mul_div_cancel_right₀ _ (by positivity)]

/-- The quotient without its fraction part is that of the magnitudes, with the sign. -/
theorem truncate_signFactor_mul_div (neg : Bool) (m n : Nat) :
    (truncate (signFactor neg * (m / n)) : ℚ) = signFactor neg * (m / n : Nat) := by
  have hfloor : ⌊(m : ℚ) / n⌋ = (m / n : Nat) := by exact_mod_cast Rat.floor_natCast_div_natCast m n
  have hnonneg : (0 : ℚ) ≤ m / n := by positivity
  unfold truncate
  cases neg
  · rw [signFactor_false, one_mul, one_mul, if_neg hnonneg.not_gt, hfloor, Int.cast_natCast]
  · rw [signFactor_true, neg_one_mul, neg_one_mul]
    split
    next => rw [Int.ceil_neg, hfloor]; push_cast; rfl
    next h =>
      have hzero : (m : ℚ) / n = 0 := by linarith
      rw [hzero, Int.floor_zero] at hfloor
      rw [hzero, ← Int.cast_natCast (m / n), ← hfloor]
      simp

theorem ffmod_exact (d : Nat) {a b : F32} (ha : isFinite a = true) (hb : isFinite b = true) (h0 : value b ≠ 0) :
    isFinite (ffmod d a b) = true ∧ isNeg (ffmod d a b) = isNeg a ∧
      value (ffmod d a b) = value a - value b * truncate (value a / value b) := by
  obtain ⟨hfin, hneg, hval⟩ :=
    pack_roundUnits_exact (isNeg a) ((representable_units ha).mod (representable_units hb) (units_ne_zero h0))
  rw [ffmod_of_isFinite d ha hb (mt value_eq_zero_iff.2 h0)]
  refine ⟨hfin, hneg, ?_⟩
  have hsum : (units a : ℚ) = units b * (units a / units b : Nat) + (units a % units b : Nat) := by
    exact_mod_cast (Nat.div_add_mod _ _).symm
  have hsign := signFactor_mul_self (isNeg b)
  rw [hval, value_div_value, truncate_signFactor_mul_div, value_eq a, value_eq b, signFactor_bne]
  generalize (2 : ℚ) ^ 149 = scale
  linear_combination (-(signFactor (isNeg a) / scale)) * hsum +
    (signFactor (isNeg a) * units b * (units a / units b : Nat) / scale) * hsign

end Sys2Proof.Machine
end

section
/-! SUPPORT. The arithmetic operations with an infinite operand or a zero divisor (R12, R118), and the first of the statements. -/

namespace Sys2Proof.Machine

section InfiniteOperand

variable (d : Nat) {a b : F32}

theorem fadd_isInf_left (ha : isInf a = true) (hb : isNaN b = false) (hs : isInf b = true → isNeg a = isNeg b) :
    fadd d a b = a := by
  cases h : isInf b <;> simp_all [fadd, isNaN_of_isInf ha]

theorem fadd_isInf_right (ha : isFinite a = true) (hb : isInf b = true) : fadd d a b = b := by
  rw [isFinite_eq_true_iff] at ha
  simp [fadd, ha, hb, isNaN_of_isInf hb]

theorem fmul_isInf_left (ha : isInf a = true) (hb : isNaN b = false) (h0 : magBits b ≠ 0) :
    fmul d a b = infinity (isNeg a != isNeg b) := by
  simp [fmul, ha, hb, h0, isNaN_of_isInf ha, finf_eq_infinity]

theorem fmul_isInf_right (ha : isFinite a = true) (hb : isInf b = true) (h0 : magBits a ≠ 0) :
    fmul d a b = infinity (isNeg a != isNeg b) := by
  rw [isFinite_eq_true_iff] at ha
  simp [fmul, ha, hb, h0, isNaN_of_isInf hb, finf_eq_infinity]

theorem fdiv_isInf_left (ha : isInf a = true) (hb : isFinite b = true) : fdiv d a b = infinity (isNeg a != isNeg b) := by
  rw [isFinite_eq_true_iff] at hb
  simp [fdiv, ha, hb, isNaN_of_isInf ha, finf_eq_infinity]

theorem fdiv_isInf_right (ha : isFinite a = true) (hb : isInf b = true) : fdiv d a b = signedZero (isNeg a != isNeg b) := by
  rw [isFinite_eq_true_iff] at ha
  simp [fdiv, ha, hb, isNaN_of_isInf hb, fzero_eq_signedZero]

theorem fdiv_zero (ha : isFinite a = true) (hb : isFinite b = true) (ha0 : magBits a ≠ 0) (hb0 : magBits b = 0) :
    fdiv d a b = infinity (isNeg a != isNeg b) := by
  rw [isFinite_eq_true_iff] at ha hb
  simp [fdiv, ha, hb, ha0, hb0, finf_eq_infinity]

theorem ffloor_isInf (ha : isInf a = true) : ffloor d a = a := by
  simp [ffloor, ha, isNaN_of_isInf ha]

end InfiniteOperand

theorem flipSign_of_isInf {x : F32} (h : isInf x = true) : flipSign x = infinity (!isNeg x) := by
  rw [eq_infinity_of_isInf ((isInf_flipSign x).trans h), isNeg_flipSign]

/-- A magnitude of `∞` is not that of zero. -/
theorem magBits_ne_zero_of_isInf {x : F32} (h : isInf x = true) : magBits x ≠ 0 := by
  rw [isInf_iff.1 h]; decide

/-- Settles O34: a finite result is packed from the exact number rounded once (`roundsTo_pack`), `floor` and `fmod` keep a representable number (`pack_roundUnits_exact`), and the rest is the operations' own case analysis. -/
theorem finiteArithmeticIsCorrectlyRounded : Obligations.FiniteArithmeticIsCorrectlyRounded := by
  refine ⟨fun d a b ha hb => ?_, roundsTo_u32ToF32, fun d a b => ⟨?_, ?_, ?_, ?_⟩⟩
  · exact ⟨roundsTo_fadd d ha hb, roundsTo_fsub d ha hb, roundsTo_fmul d ha hb, roundsTo_fdiv d ha hb,
      ffmod_exact d ha hb, ffloor_exact d ha⟩
  · intro ha hb
    obtain ⟨hbNaN, hbInf⟩ := isFinite_eq_true_iff.1 hb
    refine ⟨fadd_isInf_left d ha hbNaN (by simp [hbInf]), fadd_isInf_right d hb ha,
      fadd_isInf_left d ha (by simp [hbNaN]) (by simp [hbInf]), ?_, fdiv_isInf_left d ha hb, fdiv_isInf_right d hb ha,
      ffloor_isInf d ha⟩
    rw [fsub, fadd_isInf_right d hb (by simp [ha]), flipSign_of_isInf ha]
  · intro ha hb
    have hbNaN := isNaN_of_isInf hb
    exact ⟨fun hs => fadd_isInf_left d ha hbNaN fun _ => hs,
      fun hs => fadd_isInf_left d ha (by simp [hbNaN]) fun _ => by simpa [Bool.eq_not] using hs,
      fmul_isInf_left d ha hbNaN (magBits_ne_zero_of_isInf hb)⟩
  · intro ha hb h0
    have hmag : magBits b ≠ 0 := mt value_eq_zero_iff.2 h0
    exact ⟨fmul_isInf_left d ha (isNaN_of_isFinite hb) hmag, fmul_isInf_right d hb ha hmag⟩
  · intro ha hb ha0 hb0
    exact fdiv_zero d ha hb (mt value_eq_zero_iff.2 ha0) (value_eq_zero_iff.1 hb0)

end Sys2Proof.Machine
end

section
/-! SUPPORT. The comparisons (R14): the order of the keys is that of the numbers, with the infinities at its ends. -/

namespace Sys2Proof.Machine

/-- A comparison that holds has no NaN operand, and orders the keys. -/
theorem flt_iff {a b : F32} : flt a b = true ↔ (isNaN a = false ∧ isNaN b = false) ∧ fkey a < fkey b := by
  simp [flt]

theorem flt_eq_decide {a b : F32} (ha : isNaN a = false) (hb : isNaN b = false) : flt a b = decide (fkey a < fkey b) := by
  simp [flt, ha, hb]

theorem feq_eq_decide {a b : F32} (ha : isNaN a = false) (hb : isNaN b = false) : feq a b = decide (fkey a = fkey b) := by
  simp [feq, ha, hb]

theorem feq_nan_right {b : F32} (h : isNaN b = true) (a : F32) : feq a b = false := by simp [feq, h]

/-- The keys order two values as their units do, since the units grow with the magnitude bits and are zero with them. -/
theorem fkey_lt_fkey_iff_sunits (a b : F32) : fkey a < fkey b ↔ sunits a < sunits b := by
  have hlt (x y : F32) : units x < units y ↔ magBits x < magBits y := magUnits_strictMono.lt_iff_lt
  have hzero (x : F32) : units x = 0 ↔ magBits x = 0 := magUnits_eq_zero
  have hab := hlt a b
  have hba := hlt b a
  have ha := hzero a
  have hb := hzero b
  unfold fkey sunits
  split <;> split <;> omega

theorem fkey_lt_fkey_iff (a b : F32) : fkey a < fkey b ↔ value a < value b := by
  rw [fkey_lt_fkey_iff_sunits, value_eq_sunits, value_eq_sunits, div_lt_div_iff_of_pos_right (by positivity), Int.cast_lt]

theorem fkey_eq_fkey_iff (a b : F32) : fkey a = fkey b ↔ value a = value b := by
  rw [le_antisymm_iff, le_antisymm_iff, ← not_lt, ← not_lt, ← not_lt, ← not_lt, fkey_lt_fkey_iff, fkey_lt_fkey_iff]

theorem flt_iff_value {a b : F32} (ha : isNaN a = false) (hb : isNaN b = false) : flt a b = true ↔ value a < value b := by
  rw [flt_eq_decide ha hb, decide_eq_true_iff, fkey_lt_fkey_iff]

theorem feq_iff_value {a b : F32} (ha : isNaN a = false) (hb : isNaN b = false) : feq a b = true ↔ value a = value b := by
  rw [feq_eq_decide ha hb, decide_eq_true_iff, fkey_eq_fkey_iff]

theorem abs_fkey (x : F32) : |fkey x| = magBits x := by
  unfold fkey; split <;> simp

theorem fkey_of_isInf {x : F32} (h : isInf x = true) : fkey x = if isNeg x then -0x7F800000 else 0x7F800000 := by
  rw [fkey, isInf_iff.1 h]; rfl

/-- The finite values are those with keys between the infinities'. -/
theorem fkey_bounds_of_isFinite {x : F32} (h : isFinite x = true) : -0x7F800000 < fkey x ∧ fkey x < 0x7F800000 := by
  rw [← abs_lt, abs_fkey]
  exact_mod_cast isFinite_iff.1 h

/-- What lies strictly between two values is finite. -/
theorem isFinite_of_flt_of_flt {a x b : F32} (hax : flt a x = true) (hxb : flt x b = true) : isFinite x = true := by
  obtain ⟨⟨ha, -⟩, hlow⟩ := flt_iff.1 hax
  obtain ⟨⟨-, hb⟩, hhigh⟩ := flt_iff.1 hxb
  have hbound {y : F32} (hy : isNaN y = false) : |fkey y| ≤ 0x7F800000 := by
    rw [abs_fkey]
    simpa [isNaN] using hy
  have hx : |fkey x| < 0x7F800000 :=
    abs_lt.2 ⟨(abs_le.1 (hbound ha)).1.trans_lt hlow, hhigh.trans_le (abs_le.1 (hbound hb)).2⟩
  rw [abs_fkey] at hx
  exact isFinite_iff.2 (by exact_mod_cast hx)

/-- Settles O36: each comparison tests both operands for a NaN first. -/
theorem comparisonsWithNaN : Obligations.ComparisonsWithNaN := by
  rintro a b (ha | hb)
  · simp [fgt, fne, flt_nan_left ha, flt_nan_right ha, feq_nan_left ha]
  · simp [fgt, fne, flt_nan_left hb, flt_nan_right hb, feq_nan_right hb]

/-- Settles O35, on the keys: finite ones are ordered as the numbers, an infinity's is past every finite one. -/
theorem comparisonsOrderTheValues : Obligations.ComparisonsOrderTheValues := by
  intro a b ha hb
  refine ⟨fun _ _ => ⟨flt_iff_value ha hb, feq_iff_value ha hb⟩, fun hfin hinf => ?_, fun hinfa hinfb => ?_, rfl, rfl⟩
  · obtain ⟨hlow, hhigh⟩ := fkey_bounds_of_isFinite hfin
    rw [flt_eq_decide ha hb, flt_eq_decide hb ha, feq_eq_decide ha hb, feq_eq_decide hb ha, fkey_of_isInf hinf]
    cases isNeg b
    · simp [hhigh, hhigh.not_gt, hhigh.ne, hhigh.ne']
    · simp [hlow, hlow.not_gt, hlow.ne, hlow.ne']
  · rw [flt_eq_decide ha hb, feq_eq_decide ha hb, fkey_of_isInf hinfa, fkey_of_isInf hinfb]
    cases isNeg a <;> cases isNeg b <;> decide

end Sys2Proof.Machine
end

section
/-! SUPPORT. `|x|` (R121), the clamp (R211), and which results are NaN (R12, R15, R118). -/

namespace Sys2Proof.Machine

/-- Settles O32: the mask's bits are set below bit 31 only. -/
theorem absClearsOnlyTheSignBit : Obligations.AbsClearsOnlyTheSignBit := by
  intro x b hb
  have hmask : (0x7FFFFFFF#32).getLsbD b = decide (b ≠ 31) := by
    revert b; decide
  rw [fabs, BitVec.getLsbD_and, hmask, Bool.and_comm]

theorem clamp_of_flt {x : F32} (h : flt x fm1 = true) : clamp x = fm1 := if_pos h

/-- What lies above 1.0 does not lie below -1.0. -/
theorem clamp_of_fgt {x : F32} (h : fgt x f1 = true) : clamp x = f1 := by
  have hlow : ¬ flt x fm1 = true := fun hlow => by
    have hkeys := (flt_iff.1 h).2.trans (flt_iff.1 hlow).2
    exact absurd hkeys (by decide)
  rw [clamp, if_neg hlow, if_pos h]

theorem clamp_of_between {x : F32} (hlow : flt x fm1 = false) (hhigh : fgt x f1 = false) : clamp x = x := by
  simp [clamp, hlow, hhigh]

/-- Settles O19, by where `x` lies. -/
theorem clampCases : Obligations.ClampCases := by
  refine ⟨by decide, by decide, by decide, by decide, fun x => ⟨clamp_of_flt, clamp_of_fgt, clamp_of_between, fun h => ?_, fun _ => ?_⟩⟩
  · exact clamp_of_between (flt_nan_left h _) (flt_nan_right h _)
  · cases hlow : flt x fm1
    · cases hhigh : fgt x f1
      · rw [clamp_of_between hlow hhigh]; exact ⟨hlow, hhigh⟩
      · rw [clamp_of_fgt hhigh]; decide
    · rw [clamp_of_flt hlow]; decide

theorem isNaN_finf (neg : Bool) : isNaN (finf neg) = false := isNaN_pack le_rfl

theorem isNaN_fzero (neg : Bool) : isNaN (fzero neg) = false := isNaN_pack (by decide)

section NaNResult

variable (d : Nat) (a b : F32)

theorem isNaN_fadd_iff : isNaN (fadd d a b) = true ↔
    isNaN a = true ∨ isNaN b = true ∨ (isInf a = true ∧ isInf b = true ∧ isNeg a ≠ isNeg b) := by
  unfold fadd
  split_ifs with hnan hinfa hopp hinfb hzero
  · exact iff_of_true (isNaN_nan d) (or_assoc.1 (.inl (by simpa using hnan)))
  · exact iff_of_true (isNaN_nan d) (by simp_all)
  · simp_all
  · simp_all
  · simp_all [isNaN_fzero]
  · simp_all [isNaN_pack_roundUnits]

theorem isNaN_fsub_iff : isNaN (fsub d a b) = true ↔
    isNaN a = true ∨ isNaN b = true ∨ (isInf a = true ∧ isInf b = true ∧ isNeg a = isNeg b) := by
  simp [fsub, isNaN_fadd_iff]

theorem isNaN_fmul_iff : isNaN (fmul d a b) = true ↔
    isNaN a = true ∨ isNaN b = true ∨ (isInf a = true ∧ magBits b = 0) ∨ (magBits a = 0 ∧ isInf b = true) := by
  unfold fmul
  split_ifs with hnan hinfa hzero hinfb hzero'
  · exact iff_of_true (isNaN_nan d) (or_assoc.1 (.inl (by simpa using hnan)))
  · exact iff_of_true (isNaN_nan d) (by simp_all)
  · simp_all [isNaN_finf, magBits_ne_zero_of_isInf]
  · exact iff_of_true (isNaN_nan d) (by simp_all)
  · simp_all [isNaN_finf]
  · simp_all [isNaN_pack_roundUnits]

theorem isNaN_fdiv_iff : isNaN (fdiv d a b) = true ↔
    isNaN a = true ∨ isNaN b = true ∨ (isInf a = true ∧ isInf b = true) ∨ (magBits a = 0 ∧ magBits b = 0) := by
  unfold fdiv
  split_ifs with hnan hinfa hinfb hinfb' hzero hzero'
  · exact iff_of_true (isNaN_nan d) (or_assoc.1 (.inl (by simpa using hnan)))
  · exact iff_of_true (isNaN_nan d) (by simp_all)
  · simp_all [isNaN_finf, magBits_ne_zero_of_isInf]
  · simp_all [isNaN_fzero, magBits_ne_zero_of_isInf]
  · exact iff_of_true (isNaN_nan d) (by simp_all)
  · simp_all [isNaN_finf]
  · simp_all [isNaN_pack_roundUnits]

theorem isNaN_ffloor_iff : isNaN (ffloor d a) = true ↔ isNaN a = true := by
  unfold ffloor
  split_ifs with hnan hinf
  · simp [isNaN_nan, hnan]
  · rfl
  · simp [isNaN_pack_roundUnits, hnan]

theorem isNaN_ffmod_one_iff : isNaN (ffmod d a f1) = true ↔ isNaN a = true ∨ isInf a = true := by
  have hone : isNaN f1 = false ∧ isInf f1 = false ∧ magBits f1 ≠ 0 := by decide
  unfold ffmod
  split_ifs with hnan hinf
  · exact iff_of_true (isNaN_nan d) (by simp_all)
  · simp_all
  · simp_all [isNaN_pack_roundUnits]

end NaNResult

/-- Settles O37, one lemma an operation: its branches, each a draw or no NaN. -/
theorem naNResultsOfArithmetic : Obligations.NaNResultsOfArithmetic := fun d a b =>
  ⟨isNaN_fadd_iff d a b, isNaN_fsub_iff d a b, isNaN_fmul_iff d a b, isNaN_fdiv_iff d a b, isNaN_ffloor_iff d a,
    isNaN_ffmod_one_iff d a⟩

end Sys2Proof.Machine
end

section
/-! SUPPORT. The phase wraps (R129): what `fmod(phase, 1.0)` and the floored modulo leave of a phase. -/

namespace Sys2Proof.Machine

theorem value_of_one_bits {x : F32} (h : magBits x = 0x3F800000) : value x = signFactor (isNeg x) := by
  have hunits : units x = 2 ^ 149 := by
    rw [units_eq_magUnits, h]
    exact (magUnits_significand (t := 126) (by decide) (.inr le_rfl)).trans (by rw [← pow_add])
  rw [value_eq, hunits, Nat.cast_pow, Nat.cast_ofNat, div_self (by positivity), mul_one]

theorem value_f1 : value f1 = 1 := value_of_one_bits (by decide)

theorem value_fm1 : value fm1 = -1 := value_of_one_bits (by decide)

theorem value_f0 : value f0 = 0 := value_eq_zero_iff.2 (by decide)

theorem truncate_of_nonneg {x : ℚ} (h : 0 ≤ x) : truncate x = ⌊x⌋ := if_neg h.not_gt

theorem truncate_of_neg {x : ℚ} (h : x < 0) : truncate x = ⌈x⌉ := if_pos h

theorem truncate_eq_zero {x : ℚ} (hlow : -1 < x) (hhigh : x < 1) : truncate x = 0 := by
  rcases lt_or_ge x 0 with h | h
  · rw [truncate_of_neg h, Int.ceil_eq_zero_iff]; exact ⟨hlow, h.le⟩
  · rw [truncate_of_nonneg h, Int.floor_eq_zero_iff]; exact ⟨h, hhigh⟩

/-- The default wrap is the phase without its integer part, with its sign. -/
theorem ffmod_one (d : Nat) {x : F32} (hx : isFinite x = true) :
    isFinite (ffmod d x f1) = true ∧ isNeg (ffmod d x f1) = isNeg x ∧
      value (ffmod d x f1) = value x - truncate (value x) := by
  have hexact := ffmod_exact d hx (show isFinite f1 = true by decide) (by rw [value_f1]; exact one_ne_zero)
  rwa [value_f1, one_mul, div_one] at hexact

theorem isNeg_of_value_neg {x : F32} (h : value x < 0) : isNeg x = true := by
  by_contra hpos
  rw [value_eq, Bool.eq_false_of_not_eq_true hpos, signFactor_false, one_mul] at h
  exact absurd h (not_lt.2 (by positivity))

section FmodOne

variable (d : Nat) {x : F32}

theorem ffmod_one_of_nonneg (hx : isFinite x = true) (hpos : flt x f0 = false) :
    flt (ffmod d x f1) f1 = true ∧ flt (ffmod d x f1) f0 = false := by
  obtain ⟨hfin, -, hval⟩ := ffmod_one d hx
  have hnan := isNaN_of_isFinite hfin
  rw [← Bool.not_eq_true, flt_iff_value (isNaN_of_isFinite hx) (by decide), value_f0, not_lt] at hpos
  rw [← Bool.not_eq_true, flt_iff_value hnan (by decide), flt_iff_value hnan (by decide), value_f1, value_f0, not_lt, hval,
    truncate_of_nonneg hpos]
  exact ⟨Int.fract_lt_one (value x), Int.fract_nonneg (value x)⟩

theorem ffmod_one_of_neg (hx : isFinite x = true) (hneg : flt x f0 = true) :
    fgt (ffmod d x f1) fm1 = true ∧ fgt (ffmod d x f1) f0 = false ∧ isNeg (ffmod d x f1) = true := by
  obtain ⟨hfin, hsign, hval⟩ := ffmod_one d hx
  have hnan := isNaN_of_isFinite hfin
  rw [flt_iff_value (isNaN_of_isFinite hx) (by decide), value_f0] at hneg
  rw [fgt, fgt, ← Bool.not_eq_true, flt_iff_value (by decide) hnan, flt_iff_value (by decide) hnan, value_fm1, value_f0,
    not_lt, hval, truncate_of_neg hneg, hsign]
  have hceil := Int.ceil_lt_add_one (value x)
  exact ⟨by linarith, sub_nonpos.2 (Int.le_ceil (value x)), isNeg_of_value_neg hneg⟩

theorem ffmod_one_of_between (hhigh : flt x f1 = true) (hlow : fgt x fm1 = true) : ffmod d x f1 = x := by
  have hx := isFinite_of_flt_of_flt hlow hhigh
  have hnan := isNaN_of_isFinite hx
  obtain ⟨-, hsign, hval⟩ := ffmod_one d hx
  rw [flt_iff_value hnan (by decide), value_f1] at hhigh
  rw [fgt, flt_iff_value (by decide) hnan, value_fm1] at hlow
  rw [truncate_eq_zero hlow hhigh, Int.cast_zero, sub_zero] at hval
  exact eq_of_isNeg_of_value hsign hval

end FmodOne

/-- Rounding a number that is not negative gives no negative number: zero is no nearer. -/
theorem RoundsTo.value_nonneg {x : ℚ} {zeroNeg : Bool} {r : F32} (h : RoundsTo x zeroNeg r) (h0 : 0 ≤ x) (h1 : x < 1) :
    0 ≤ value r := by
  obtain ⟨-, -, -, hsmall⟩ := h
  have hzero := ((hsmall (by rw [abs_of_nonneg h0]; linarith)).2 f0 (by decide)).1
  rw [value_f0, sub_zero, abs_of_nonneg h0] at hzero
  linarith [(abs_le.1 hzero).2]

/-- The floored modulo's rounded difference lies in [0, 1), or is replaced by the largest value below 1.0. -/
theorem floored_wrap_range {p : Params} (d : Nat) {x : F32} (hp : p.oscWrap = .floored) (hx : isFinite x = true) :
    flt (oscWrap p d x) f1 = true ∧ flt (oscWrap p d x) f0 = false := by
  obtain ⟨hfin, -, hval⟩ := ffloor_exact d hx
  have hround := roundsTo_fsub d hx hfin
  rw [hval] at hround
  have hnonneg := hround.value_nonneg (Int.fract_nonneg (value x)) (Int.fract_lt_one (value x))
  have hnan := hround.1
  simp only [oscWrap, hp, hnan, Bool.or_false]
  split
  next hlt =>
    refine ⟨hlt, ?_⟩
    rwa [← Bool.not_eq_true, flt_iff_value hnan (by decide), value_f0, not_lt]
  next => decide

/-- Settles O38, by the sign of the phase; the wrap is exact, so its range is that of the number without its integer part. -/
theorem defaultPhaseWrapRange : Obligations.DefaultPhaseWrapRange := by
  refine fun p d x => ⟨fun hp => ?_, fun hp hx => floored_wrap_range d hp hx⟩
  have hwrap : oscWrap p d x = ffmod d x f1 := by simp only [oscWrap, hp]
  rw [hwrap]
  exact ⟨rfl, fun hx => (ffmod_one d hx).2.2, ffmod_one_of_nonneg d, ffmod_one_of_neg d, ffmod_one_of_between d,
    (isNaN_ffmod_one_iff d x).2⟩

end Sys2Proof.Machine
end

section
/-! SUPPORT. A configuration without semantics (R10). -/

namespace Sys2Proof.Machine

theorem step_of_not_wf {s : State} (h : ¬ s.params.wf = true) : step s = .refused .badParameters := if_neg h

/-- The check of `TIME_REG` is the constraints of R10 on it. -/
theorem timeReg_constraints_of_timeRegOk {p : Params} (h : p.timeRegOk = true) :
    (∀ k, p.timeReg = .audio k → k < p.na) ∧ (∀ k, p.timeReg = .control k → k < p.nc) ∧
      p.timeReg ≠ .control p.pitchCreg ∧ p.timeReg ≠ .control p.gateCreg := by
  unfold Params.timeRegOk at h
  cases ht : p.timeReg <;> simp_all

/-- Settles O15: what `Params.wf` accepts meets every constraint, so a broken one leaves the step refused. -/
theorem configurationThatBreaksAConstraintIsRefused : Obligations.ConfigurationThatBreaksAConstraintIsRefused := by
  refine fun s hbroken => step_of_not_wf fun hwf => hbroken ?_
  simp only [Params.wf, decide_eq_true_eq] at hwf
  obtain ⟨hna, hna', hnc, hpitch, hgate, hne, hcap, hcap', hnch, hnch', hcmd, hmir, htime, -⟩ := hwf
  exact ⟨hna, hna', hnc, hpitch, hgate, hne, hcap, hcap', hnch, hnch', hcmd, hmir, timeReg_constraints_of_timeRegOk htime⟩

end Sys2Proof.Machine
end

section
/-! SUPPORT. The frame of a node call (R117, R155): what every kernel does to its ports and registers, said once for the five kinds. -/

namespace Sys2Proof.Machine

/-- A bound port writes the one audio register it names, and any other port none (R67). -/
theorem portWrite_areg {P : Port} {d : StackData} {r : Nat} (h : ∀ k : BitVec 8, k.toNat = r → PortSpec.audio k ≠ P.spec) :
    (P.write d).areg[r]? = d.areg[r]? := by
  cases P with
  | audio k v => exact List.getElem?_set_ne fun hk => h k hk rfl
  | control k x => rfl
  | const c x => rfl
  | freeAudio v => rfl

theorem portWrite_creg {P : Port} {d : StackData} {r : Nat} (h : ∀ k : BitVec 8, k.toNat = r → PortSpec.control k ≠ P.spec) :
    (P.write d).creg[r]? = d.creg[r]? := by
  cases P with
  | control k x => exact List.getElem?_set_ne fun hk => h k hk rfl
  | audio k v => rfl
  | const c x => rfl
  | freeAudio v => rfl

/-! A kernel keeps the descriptors of the ports it writes (R80). -/

/-- A feature of the loop state that the body keeps is kept by the loop. -/
theorem sampleLoop_keeps {σ β : Type} (feature : σ → β) {body : Nat → σ → σ} (hbody : ∀ i x, feature (body i x) = feature x)
    (n : Nat) (st : σ) : feature (sampleLoop body n st) = feature st :=
  sampleLoop_induct (Q := fun _ x => feature x = feature st) rfl (fun i x h => (hbody i x).trans h) n

@[simp] theorem absKernel_spec (n : Nat) (i o : Port) : (absKernel n i o).spec = o.spec :=
  sampleLoop_keeps Port.spec (fun _ _ => put_spec _ _ _) n o

@[simp] theorem addKernel_spec (n d : Nat) (a b o : Port) : (addKernel n d a b o).spec = o.spec :=
  sampleLoop_keeps Port.spec (fun _ _ => put_spec _ _ _) n o

@[simp] theorem mulKernel_spec (n d : Nat) (a b o : Port) : (mulKernel n d a b o).spec = o.spec :=
  sampleLoop_keeps Port.spec (fun _ _ => put_spec _ _ _) n o

@[simp] theorem oscKernel_spec (p : Params) (sr : F32) (n d : Nat) (f w q : Port) (st : OscState) :
    (oscKernel p sr n d f w q st).output.spec = st.output.spec :=
  sampleLoop_keeps (fun x : OscState => x.output.spec) (fun _ _ => put_spec _ _ _) n st

@[simp] theorem adsrRetrigger_spec (g x : F32) (i : Nat) (time : Port) : (adsrRetrigger g x i time).spec = time.spec := by
  unfold adsrRetrigger
  split <;> simp

section
variable (p : Params) (sr : F32) (n d : Nat) (g a dc su r : Port) (st : AdsrState)

@[simp] theorem adsrKernel_output_spec : (adsrKernel p sr n d g a dc su r st).output.spec = st.output.spec :=
  sampleLoop_keeps (fun x : AdsrState => x.output.spec) (fun _ _ => put_spec _ _ _) n st

@[simp] theorem adsrKernel_time_spec : (adsrKernel p sr n d g a dc su r st).time.spec = st.time.spec :=
  sampleLoop_keeps (fun x : AdsrState => x.time.spec) (fun _ _ => (put_spec _ _ _).trans (adsrRetrigger_spec _ _ _ _)) n st

end

/-- Every register that no port of `outs` names is the same in both files. -/
def SameOutside (outs : List PortSpec) (d d' : StackData) : Prop :=
  (∀ r, (∀ k : BitVec 8, k.toNat = r → PortSpec.audio k ∉ outs) → d'.areg[r]? = d.areg[r]?) ∧
  (∀ r, (∀ k : BitVec 8, k.toNat = r → PortSpec.control k ∉ outs) → d'.creg[r]? = d.creg[r]?)

theorem sameOutside_write {outs : List PortSpec} {d d' : StackData} (h : SameOutside outs d d') {P : Port} (hP : P.spec ∈ outs) :
    SameOutside outs d (P.write d') :=
  ⟨fun r hr => (portWrite_areg fun k hk (e : PortSpec.audio k = P.spec) => hr k hk (e ▸ hP)).trans (h.1 r hr),
    fun r hr => (portWrite_creg fun k hk (e : PortSpec.control k = P.spec) => hr k hk (e ▸ hP)).trans (h.2 r hr)⟩

theorem sameOutside_refl (outs : List PortSpec) (d : StackData) : SameOutside outs d d :=
  ⟨fun _ _ => rfl, fun _ _ => rfl⟩

/-- What a node call can do: it ends in one `commitNode` that keeps the node's descriptor and the form of the register file, and writes no register but those its output ports name. -/
theorem exec_nodeAt_frame {s : State} {tx : Tx} {pos : RenderPos} {S : Stack} {nd : Node} (h : s.nodeAt = some ⟨tx, pos, S, nd⟩) :
    ∃ (nd' : Node) (d : StackData) (u : Nat), exec nd.desc.toInstr s = .next (commitNode s tx pos S nd' d u) ∧
      nd'.desc = nd.desc ∧ (∀ p, d.wf p = S.data.wf p) ∧ SameOutside nd.desc.outputs S.data d := by
  have hrefl (outs) := sameOutside_refl outs S.data
  cases nd with
  | abs i o =>
    exact ⟨_, _, _, execAbs_at h, by simp [Node.desc], by simp,
      sameOutside_write (hrefl _) (by simp [Node.desc, NodeDesc.outputs])⟩
  | add a b o =>
    exact ⟨_, _, _, execAdd_at h, by simp [Node.desc], by simp,
      sameOutside_write (hrefl _) (by simp [Node.desc, NodeDesc.outputs])⟩
  | mul a b o =>
    exact ⟨_, _, _, execMul_at h, by simp [Node.desc], by simp,
      sameOutside_write (hrefl _) (by simp [Node.desc, NodeDesc.outputs])⟩
  | osc f w q o ph =>
    exact ⟨_, _, _, execOsc_at h, by simp [Node.desc], by simp,
      sameOutside_write (hrefl _) (by simp [Node.desc, NodeDesc.outputs])⟩
  | adsr g a d su r t o v x =>
    exact ⟨_, _, _, execAdsr_at h, by simp [Node.desc], by simp,
      sameOutside_write (sameOutside_write (hrefl _) (by simp [Node.desc, NodeDesc.outputs]))
        (by simp [Node.desc, NodeDesc.outputs])⟩

/-- Putting a node of the same descriptor in a node's place keeps the descriptors of the list. -/
theorem map_desc_set {l : List Node} {k : Nat} {nd nd' : Node} (hk : l[k]? = some nd) (hd : nd'.desc = nd.desc) :
    (l.set k nd').map Node.desc = l.map Node.desc := by
  obtain ⟨hlt, rfl⟩ := List.getElem?_eq_some_iff.1 hk
  rw [List.map_set, hd, ← List.getElem_map Node.desc (h := by simpa using hlt), List.set_getElem_self]

/-- Settles O29: the node call is one `commitNode` at the render position (`exec_nodeAt_frame`). -/
theorem nodeKernelFrame : Obligations.NodeKernelFrame := by
  intro s t tx pos S node hat ht
  obtain ⟨nd', d, u, hexec, hdesc, -, hareg, hcreg⟩ := exec_nodeAt_frame hat
  obtain rfl := Host.Outcome.next.inj (hexec.symm.trans ht)
  obtain ⟨-, -, hstack, hnode⟩ := nodeAt_eq_some.1 hat
  simp only at hstack hnode
  have hself := stack_commitNode_self tx pos S nd' d u (lt_of_stack hstack)
  refine ⟨rfl, rfl, rfl, rfl, rfl, fun c hc => List.getElem?_set_ne hc.symm, fun c => ?_, fun k hk => ?_, fun r j hr => ?_, fun r hr => ?_⟩
  · by_cases hc : c = pos.c
    · subst hc
      simp [State.nodes, hself, hstack, map_desc_set hnode hdesc]
    · simp [State.nodes, hc]
  · simp [State.nodes, hself, hstack, List.getElem?_set_ne hk.symm]
  · simp [State.areg, hself, hstack, hareg r hr]
  · simp [State.creg, hself, hstack, hcreg r hr]

end Sys2Proof.Machine
end

section
/-! SUPPORT. What one step can do, said once: whose turn it is, the moves of the ASP (R214), and the frames of an event and of a command. -/

namespace Sys2Proof.Machine

/-- A step is one turn: the first one listed, or the ASP's when none is (log entry 3). -/
theorem step_eq_turnStep {s : State} (h : s.params.wf = true) :
    step s = turnStep (s.turns.headD .asp) { s with turns := s.turns.tail } := by
  obtain ⟨params, ch, pitch, held, heldCount, status, cmdq, mirq, tx, outBuf, result, reply, blocks, turns, draws⟩ := s
  unfold step machineStep
  rw [if_pos h]
  cases turns <;> rfl

theorem wf_of_step {s t : State} (h : step s = .next t) : s.params.wf = true := by
  by_contra hwf
  rw [step_of_not_wf hwf] at h
  cases h

theorem turnStep_of_step {s t : State} (h : step s = .next t) :
    turnStep (s.turns.headD .asp) { s with turns := s.turns.tail } = .next t :=
  (step_eq_turnStep (wf_of_step h)).symm.trans h

theorem step_of_no_turns {s : State} (hwf : s.params.wf = true) (hturns : s.turns = []) : step s = aspStep s := by
  unfold step machineStep
  rw [if_pos hwf, hturns]

/-- The moves of the render phase (R145, R209). A node call keeps the node's descriptor and the form of the register file. -/
inductive RenderMove (s : State) (tx : Tx) (pos : RenderPos) : State → Prop
  | node {S : Stack} {nd nd' : Node} {d : StackData} (u : Nat) : s.stack pos.c = some S → pos.b < tx.len →
      S.nodes[pos.k]? = some nd → nd'.desc = nd.desc → (∀ p, d.wf p = S.data.wf p) →
      RenderMove s tx pos (commitNode s tx pos S nd' d u)
  | copy {S : Stack} : s.stack pos.c = some S → pos.b < tx.len → S.nodes[pos.k]? = none →
      RenderMove s tx pos (copyStep tx pos S s)
  | channelDone {S : Stack} : s.stack pos.c = some S → tx.len ≤ pos.b →
      RenderMove s tx pos { s with tx := some { tx with stage := .render (channelStart (pos.c + 1) tx.len) } }
  | channelEmpty : s.stack pos.c = none → pos.c < s.params.nch →
      RenderMove s tx pos { s with tx := some { tx with stage := .render (channelStart (pos.c + 1) tx.len) } }
  | rendered : s.stack pos.c = none → s.params.nch ≤ pos.c →
      RenderMove s tx pos { s with tx := some { tx with stage := .output 0 } }

/-- The moves of the ASP: what a step of it that answers a next state has done (R214, R244). -/
inductive AspMove (s : State) : State → Prop
  | idle : s.tx = none → s.blocks = [] → AspMove s s
  | stop {blk : BlockIn} {rest : List BlockIn} : s.tx = none → s.blocks = blk :: rest →
      AspMove s { s with blocks := rest, outBuf := blk.buffer, result := some .stop }
  | start {blk : BlockIn} {rest : List BlockIn} : s.tx = none → s.blocks = blk :: rest →
      tooLong s.params blk.buffer.length = false →
      AspMove s { s with
        blocks := rest
        outBuf := blk.buffer
        result := none
        tx := some { events := blk.events, len := blk.buffer.length, rate := blk.rate, chout := [], stage := .drain } }
  | pop {tx : Tx} {msg : List Word} {rest : List (List Word)} : s.tx = some tx → tx.stage = .drain → s.cmdq = msg :: rest →
      AspMove s { s with cmdq := rest, tx := some { tx with stage := .apply msg } }
  | drained {tx : Tx} : s.tx = some tx → tx.stage = .drain → s.cmdq = [] →
      AspMove s { s with tx := some { tx with stage := .midi } }
  | malformed {tx : Tx} {msg : List Word} : s.tx = some tx → tx.stage = .apply msg →
      AspMove s (raiseStatus .badcmd { s with tx := some { tx with stage := .drain } })
  | command {tx : Tx} {msg : List Word} {i : Instr} {t : State} : s.tx = some tx → tx.stage = .apply msg →
      decodeCommand s.params msg = .ok i → exec i { s with tx := some { tx with stage := .drain } } = .next t → AspMove s t
  | event {tx : Tx} {ev : Word} {rest : List Word} {t : State} : s.tx = some tx → tx.stage = .midi → tx.events = ev :: rest →
      exec (decodeEvent ev) { s with tx := some { tx with events := rest } } = .next t → AspMove s t
  | beginRender {tx : Tx} : s.tx = some tx → tx.stage = .midi → tx.events = [] → AspMove s (beginRender tx s)
  | render {tx : Tx} {pos : RenderPos} {t : State} : s.tx = some tx → tx.stage = .render pos → RenderMove s tx pos t → AspMove s t
  | sample {tx : Tx} {j : Nat} (v : F32) (d : Nat) : s.tx = some tx → tx.stage = .output j → j < tx.len →
      AspMove s { s with outBuf := s.outBuf.set j v, draws := d, tx := some { tx with stage := .output (j + 1) } }
  | finish {tx : Tx} {j : Nat} : s.tx = some tx → tx.stage = .output j → tx.len ≤ j →
      AspMove s { s with tx := none, result := some .cont }

/-! The step of each stage, forwards. -/

section
variable {s : State} {tx : Tx} {pos : RenderPos} {S : Stack}

theorem aspStep_pop {msg : List Word} {rest : List (List Word)} (htx : s.tx = some tx) (hst : tx.stage = .drain)
    (hq : s.cmdq = msg :: rest) : aspStep s = .next { s with cmdq := rest, tx := some { tx with stage := .apply msg } } := by
  simp [aspStep, htx, hst, drainStep, hq, setStage]

theorem aspStep_drained (htx : s.tx = some tx) (hst : tx.stage = .drain) (hq : s.cmdq = []) :
    aspStep s = .next { s with tx := some { tx with stage := .midi } } := by
  simp [aspStep, htx, hst, drainStep, hq, setStage]

theorem aspStep_apply {msg : List Word} (htx : s.tx = some tx) (hst : tx.stage = .apply msg) :
    aspStep s = runCommand msg { s with tx := some { tx with stage := .drain } } := by
  simp [aspStep, htx, hst, setStage]

theorem aspStep_event {ev : Word} {rest : List Word} (htx : s.tx = some tx) (hst : tx.stage = .midi)
    (hev : tx.events = ev :: rest) : aspStep s = exec (decodeEvent ev) { s with tx := some { tx with events := rest } } := by
  simp [aspStep, htx, hst, hev]

theorem aspStep_beginRender (htx : s.tx = some tx) (hst : tx.stage = .midi) (hev : tx.events = []) :
    aspStep s = .next (beginRender tx s) := by
  simp [aspStep, htx, hst, hev]

theorem aspStep_node {nd : Node} (htx : s.tx = some tx) (hst : tx.stage = .render pos) (hS : s.stack pos.c = some S)
    (hb : pos.b < tx.len) (hk : S.nodes[pos.k]? = some nd) : aspStep s = exec nd.desc.toInstr s := by
  simp [aspStep, htx, hst, renderStep, hS, hb, hk]

theorem aspStep_copy (htx : s.tx = some tx) (hst : tx.stage = .render pos) (hS : s.stack pos.c = some S)
    (hb : pos.b < tx.len) (hk : S.nodes[pos.k]? = none) : aspStep s = .next (copyStep tx pos S s) := by
  simp only [aspStep, htx, hst, renderStep, hS, hb, hk, if_true]

theorem aspStep_channelDone (htx : s.tx = some tx) (hst : tx.stage = .render pos) (hS : s.stack pos.c = some S)
    (hb : tx.len ≤ pos.b) :
    aspStep s = .next { s with tx := some { tx with stage := .render (channelStart (pos.c + 1) tx.len) } } := by
  simp [aspStep, htx, hst, renderStep, hS, Nat.not_lt.2 hb, setStage]

theorem aspStep_channelEmpty (htx : s.tx = some tx) (hst : tx.stage = .render pos) (hS : s.stack pos.c = none)
    (hc : pos.c < s.params.nch) :
    aspStep s = .next { s with tx := some { tx with stage := .render (channelStart (pos.c + 1) tx.len) } } := by
  simp [aspStep, htx, hst, renderStep, hS, hc, setStage]

theorem aspStep_rendered (htx : s.tx = some tx) (hst : tx.stage = .render pos) (hS : s.stack pos.c = none)
    (hc : s.params.nch ≤ pos.c) : aspStep s = .next { s with tx := some { tx with stage := .output 0 } } := by
  simp [aspStep, htx, hst, renderStep, hS, Nat.not_lt.2 hc, setStage]

theorem aspStep_sample {j : Nat} (htx : s.tx = some tx) (hst : tx.stage = .output j) (hj : j < tx.len) :
    aspStep s = .next { s with
      outBuf := s.outBuf.set j (clamp (mix s.params s.draws (choutColumn tx.chout j)))
      draws := s.draws + tx.chout.length
      tx := some { tx with stage := .output (j + 1) } } := by
  simp [aspStep, htx, hst, outputStep, hj, setStage, outWrite]

theorem aspStep_finish {j : Nat} (htx : s.tx = some tx) (hst : tx.stage = .output j) (hj : tx.len ≤ j) :
    aspStep s = .next { s with tx := none, result := some .cont } := by
  simp [aspStep, htx, hst, outputStep, Nat.not_lt.2 hj]

theorem aspStep_idle (htx : s.tx = none) (hb : s.blocks = []) : aspStep s = .next s := by
  simp [aspStep, htx, hb]

theorem aspStep_call {blk : BlockIn} {rest : List BlockIn} (htx : s.tx = none) (hb : s.blocks = blk :: rest) :
    aspStep s = beginBlock blk { s with blocks := rest } := by
  simp [aspStep, htx, hb]

end

theorem renderMove_of_aspStep {s t : State} {tx : Tx} {pos : RenderPos} (htx : s.tx = some tx) (hst : tx.stage = .render pos)
    (h : aspStep s = .next t) : RenderMove s tx pos t := by
  cases hS : s.stack pos.c with
  | none =>
    rcases Nat.lt_or_ge pos.c s.params.nch with hc | hc
    · obtain rfl := Host.Outcome.next.inj ((aspStep_channelEmpty htx hst hS hc).symm.trans h)
      exact .channelEmpty hS hc
    · obtain rfl := Host.Outcome.next.inj ((aspStep_rendered htx hst hS hc).symm.trans h)
      exact .rendered hS hc
  | some S =>
    rcases Nat.lt_or_ge pos.b tx.len with hb | hb
    · cases hk : S.nodes[pos.k]? with
      | none =>
        obtain rfl := Host.Outcome.next.inj ((aspStep_copy htx hst hS hb hk).symm.trans h)
        exact .copy hS hb hk
      | some nd =>
        obtain ⟨nd', d, u, hexec, hdesc, hwf, -⟩ := exec_nodeAt_frame (nodeAt_eq_some.2 ⟨htx, hst, hS, hk⟩)
        obtain rfl := Host.Outcome.next.inj (hexec.symm.trans ((aspStep_node htx hst hS hb hk).symm.trans h))
        exact .node u hS hb hk hdesc hwf
    · obtain rfl := Host.Outcome.next.inj ((aspStep_channelDone htx hst hS hb).symm.trans h)
      exact .channelDone hS hb

/-- The start of the driver's next call is one of its moves. -/
theorem aspMove_of_call {s t : State} {blk : BlockIn} {rest : List BlockIn} (htx : s.tx = none) (hb : s.blocks = blk :: rest)
    (h : beginBlock blk { s with blocks := rest } = .next t) : AspMove s t := by
  unfold beginBlock at h
  split_ifs at h with hlong hcon
  · obtain rfl := Host.Outcome.next.inj h
    exact .start htx hb (by simpa using hlong)
  · obtain rfl := Host.Outcome.next.inj h
    exact .stop htx hb

theorem aspMove_of_aspStep {s t : State} (h : aspStep s = .next t) : AspMove s t := by
  cases htx : s.tx with
  | none =>
    cases hb : s.blocks with
    | nil =>
      obtain rfl := Host.Outcome.next.inj ((aspStep_idle htx hb).symm.trans h)
      exact .idle htx hb
    | cons blk rest => exact aspMove_of_call htx hb ((aspStep_call htx hb).symm.trans h)
  | some tx =>
    cases hst : tx.stage with
    | drain =>
      cases hq : s.cmdq with
      | nil =>
        obtain rfl := Host.Outcome.next.inj ((aspStep_drained htx hst hq).symm.trans h)
        exact .drained htx hst hq
      | cons msg rest =>
        obtain rfl := Host.Outcome.next.inj ((aspStep_pop htx hst hq).symm.trans h)
        exact .pop htx hst hq
    | apply msg =>
      rw [aspStep_apply htx hst] at h
      unfold runCommand at h
      cases hdec : decodeCommand s.params msg with
      | error e =>
        simp only [hdec] at h
        obtain rfl := Host.Outcome.next.inj h
        exact .malformed htx hst
      | ok i =>
        simp only [hdec] at h
        exact .command htx hst hdec h
    | midi =>
      cases hev : tx.events with
      | nil =>
        obtain rfl := Host.Outcome.next.inj ((aspStep_beginRender htx hst hev).symm.trans h)
        exact .beginRender htx hst hev
      | cons ev rest => exact .event htx hst hev ((aspStep_event htx hst hev).symm.trans h)
    | render pos => exact .render htx hst (renderMove_of_aspStep htx hst h)
    | output j =>
      rcases Nat.lt_or_ge j tx.len with hj | hj
      · obtain rfl := Host.Outcome.next.inj ((aspStep_sample htx hst hj).symm.trans h)
        exact .sample _ _ htx hst hj
      · obtain rfl := Host.Outcome.next.inj ((aspStep_finish htx hst hj).symm.trans h)
        exact .finish htx hst hj

/-! The frames of an event and of a command. -/

theorem decodeEvent_family (w : Word) : (decodeEvent w).family = .midi := by
  unfold decodeEvent
  split
  · rfl
  · split <;> rfl

theorem decodeCommand_family {p : Params} {msg : List Word} {i : Instr} (h : decodeCommand p msg = .ok i) :
    i.family = .command := by
  unfold decodeCommand at h
  repeat' split at h
  all_goals cases h
  all_goals rfl

/-- What a NoteOn writes besides the registers (R170). -/
theorem midiNoteOn_eq (ev : Word) (chan : BitVec 4) (note : BitVec 7) (s : State) :
    midiNoteOn ev chan note s = { s with
      ch := (midiNoteOn ev chan note s).ch
      pitch := noteFreq s.params note
      held := bitSet s.held (noteIndex note)
      heldCount := satInc s.params s.heldCount
      mirq := if s.mirq.length < s.params.mirrorCap then s.mirq ++ [ev] else s.mirq } := by
  refine (State.mk.injEq ..).mpr ?_
  simp [midiNoteOn]

/-- An event writes the MIDI state, the mirror and the registers, and nothing else (R165, R181). -/
theorem exec_midi_frame {i : Instr} {s t : State} (hi : i.family = .midi) (h : exec i s = .next t) :
    t = { s with ch := t.ch, pitch := t.pitch, held := t.held, heldCount := t.heldCount, mirq := t.mirq } := by
  cases i with
  | noteon c n v =>
    obtain rfl := Host.Outcome.next.inj h
    split
    · rfl
    · rw [midiNoteOn_eq]
  | noteoff c n v => obtain rfl := Host.Outcome.next.inj h; rfl
  | reset c n v => obtain rfl := Host.Outcome.next.inj h; rfl
  | other w =>
    obtain rfl := Host.Outcome.next.inj h
    unfold midiOther
    split <;> rfl
  | _ => cases hi

/-- A command writes the channels, and STATUS.UNIMPL, and nothing else (R199). -/
theorem exec_command_frame {i : Instr} {s t : State} (hi : i.family = .command) (h : exec i s = .next t) :
    t = { s with ch := t.ch, status := t.status } ∧ (t.status = s.status ∨ t.status = s.status ||| statusBit .unimpl) := by
  cases i with
  | setch c ds =>
    obtain rfl := Host.Outcome.next.inj h
    split <;> exact ⟨rfl, .inl rfl⟩
  | replace c ds =>
    obtain rfl := Host.Outcome.next.inj h
    split <;> exact ⟨rfl, .inl rfl⟩
  | rmch c =>
    obtain rfl := Host.Outcome.next.inj h
    split <;> exact ⟨rfl, .inl rfl⟩
  | resetdata => obtain rfl := Host.Outcome.next.inj h; exact ⟨rfl, .inl rfl⟩
  | addnode c n ws => obtain rfl := Host.Outcome.next.inj h; exact ⟨rfl, .inr rfl⟩
  | _ => cases hi

end Sys2Proof.Machine
end

section
/-! SUPPORT. Fresh nodes and the reset state; the render position; and the frames of the ASP's moves: STATUS, the parameters, the pitch, and what rendering a channel leaves alone. -/

namespace Sys2Proof.Machine

/-- A node keeps the descriptor it is installed from (R80). -/
@[simp] theorem installNode_desc (d : NodeDesc) : (installNode d).desc = d := by
  cases d <;> simp [installNode, Node.desc]

/-- Settles O23: a fresh port's values by the port's form; the rest is how `installNode` is written. -/
theorem installedNodeValues : Obligations.InstalledNodeValues := by
  refine ⟨installNode_desc, fun q i hi => ?_, fun _ _ => rfl, fun _ _ _ => rfl, fun _ _ _ => rfl, fun _ _ _ _ _ _ _ => rfl,
    fun _ _ _ _ => rfl⟩
  cases q with
  | audio k => simp [installPort, Port.get, zeroSamples, hi]
  | freeAudio => simp [installPort, Port.get, zeroSamples, hi]
  | control k => rfl
  | const v => rfl

/-- Settles O11: the reset state's fields, and those of `powerOn`. -/
theorem powerOnResetValues : Obligations.PowerOnResetValues := by
  refine ⟨fun k hk => List.getElem?_replicate_of_lt hk, rfl, rfl, rfl, rfl, rfl, rfl, rfl, rfl, fun s rest hwf hturns => ?_⟩
  have hstep : step s = .next (powerOn { s with turns := rest }) := by
    rw [step_eq_turnStep hwf, hturns]
    rfl
  exact ⟨_, hstep, fun k hk => List.getElem?_replicate_of_lt hk, List.length_replicate, rfl, rfl, rfl, rfl, rfl, rfl, rfl, rfl⟩

/-- The buffer at place `q` after the output copy of a channel (R150). -/
theorem choutCopy_getElem? (c b : Nat) (xs : List F32) {bufs : List (Nat × List F32)} {q : Nat} {e : Nat × List F32}
    (he : bufs[q]? = some e) : (choutCopy c b xs bufs)[q]? = some (e.1, if e.1 = c then copyInto b xs e.2 else e.2) := by
  unfold choutCopy
  rw [List.getElem?_map, he, Option.map_some]
  split <;> rfl

theorem masterBus_length {n : Nat} (hn : n ≤ 256) (d : StackData) : (masterBus n d).length = n := by
  simpa [masterBus] using hn

theorem masterBus_getElem? {n i : Nat} (hi : i < n) (d : StackData) : (masterBus n d)[i]? = (d.readAudio 0)[i]? := by
  simp [masterBus, List.getElem?_take_of_lt hi]

/-- Settles O16, move by move; the copied samples are `copyInto`'s. -/
theorem renderPositionAdvances : Obligations.RenderPositionAdvances := by
  refine ⟨fun s tx hwf hturns htx hst hev => ?_, fun s tx pos hwf hturns htx hst => ?_⟩
  · exact ⟨_, _, freshBuffers_channels _ _ _, fun _ he => freshBuffers_length he,
      (step_of_no_turns hwf hturns).trans (aspStep_beginRender htx hst hev)⟩
  rw [step_of_no_turns hwf hturns]
  refine ⟨fun S hS hb hk hn => ⟨_, aspStep_copy htx hst hS hb (List.getElem?_eq_none hk), by simp [choutCopy], ?_⟩,
    fun S hS hb => aspStep_channelDone htx hst hS hb, fun hS hc => aspStep_channelEmpty htx hst hS hc,
    fun hS hc => aspStep_rendered htx hst hS hc⟩
  intro q e he
  refine ⟨_, choutCopy_getElem? _ _ _ he, by split <;> simp, fun j hj => ?_⟩
  by_cases hc : e.1 = pos.c
  · rw [if_pos hc, copyInto_getElem? _ _ hj, masterBus_length hn]
    by_cases hin : pos.b ≤ j ∧ j < pos.b + pos.n
    · rw [if_pos hin, if_pos ⟨hc, hin⟩, masterBus_getElem? (by omega)]
    · rw [if_neg hin, if_neg fun h => hin h.2]
  · rw [if_neg hc, if_neg fun h => hc h.1]

/-- Of STATUS and the parameters a move of the ASP can only set a bit of STATUS (R48, R52). -/
theorem AspMove.status_params {s t : State} (h : AspMove s t) :
    (t.status = s.status ∨ ∃ e, t.status = s.status ||| statusBit e) ∧ t.params = s.params := by
  cases h with
  | malformed htx hst => exact ⟨.inr ⟨_, rfl⟩, rfl⟩
  | command htx hst hdec hexec =>
    obtain ⟨heq, hstatus⟩ := exec_command_frame (decodeCommand_family hdec) hexec
    exact ⟨hstatus.imp id fun h => ⟨_, h⟩, by rw [heq]⟩
  | event htx hst hev hexec =>
    have heq := exec_midi_frame (decodeEvent_family _) hexec
    exact ⟨.inl (by rw [heq]), by rw [heq]⟩
  | render htx hst hmove => cases hmove <;> exact ⟨.inl rfl, rfl⟩
  | _ => exact ⟨.inl rfl, rfl⟩

/-- Settles O59: a move keeps STATUS, or sets a bit of it (`AspMove.status_params`). -/
theorem aspNeverClearsAStatusBit : Obligations.AspNeverClearsAStatusBit := by
  intro s t h
  obtain ⟨hstatus, hparams⟩ := (aspMove_of_aspStep h).status_params
  refine ⟨fun b hb => ?_, hparams⟩
  rcases hstatus with heq | ⟨e, heq⟩
  · rw [heq, hb]
  · rw [heq, BitVec.getLsbD_or, hb, Bool.true_or]

/-- An event that changes the pitch is a NoteOn, and the pitch is its note's (R180). -/
theorem exec_midi_pitch {i : Instr} {s t : State} (hi : i.family = .midi) (h : exec i s = .next t) :
    t.pitch = s.pitch ∨ ∃ c n v, i = .noteon c n v ∧ t.pitch = noteFreq s.params n := by
  cases i with
  | noteon c n v =>
    obtain rfl := Host.Outcome.next.inj h
    split
    · exact .inl rfl
    · exact .inr ⟨c, n, v, rfl, by rw [midiNoteOn_eq]⟩
  | noteoff c n v => obtain rfl := Host.Outcome.next.inj h; exact .inl rfl
  | reset c n v => obtain rfl := Host.Outcome.next.inj h; exact .inl rfl
  | other w =>
    obtain rfl := Host.Outcome.next.inj h
    unfold midiOther
    split <;> exact .inl rfl
  | _ => cases hi

theorem AspMove.pitch {s t : State} (h : AspMove s t) :
    t.pitch = s.pitch ∨ ∃ tx ev rest c n v, s.tx = some tx ∧ tx.stage = .midi ∧ tx.events = ev :: rest ∧
      decodeEvent ev = .noteon c n v ∧ t.pitch = noteFreq s.params n := by
  cases h with
  | command htx hst hdec hexec =>
    rw [(exec_command_frame (decodeCommand_family hdec) hexec).1]
    exact .inl rfl
  | event htx hst hev hexec =>
    refine (exec_midi_pitch (decodeEvent_family _) hexec).imp id ?_
    rintro ⟨c, n, v, hi, hpitch⟩
    exact ⟨_, _, _, c, n, v, htx, hst, hev, hi, hpitch⟩
  | render htx hst hmove => cases hmove <;> exact .inl rfl
  | _ => exact .inl rfl

/-- Settles O58, by whose turn it is: the controller's turns keep the pitch, and of the ASP's moves only an event can change it. -/
theorem onlyANoteOnChangesThePitch : Obligations.OnlyANoteOnChangesThePitch := by
  intro s t hstep hne
  have hturn := turnStep_of_step hstep
  cases hx : s.turns.headD .asp with
  | asp =>
    rw [hx] at hturn
    exact .inl ((aspMove_of_aspStep hturn).pitch.resolve_left hne)
  | powerOn =>
    right
    cases hturns : s.turns with
    | nil => simp [hturns] at hx
    | cons y rest => simpa [hturns] using hx
  | _ =>
    rw [hx] at hturn
    obtain rfl := Host.Outcome.next.inj hturn
    exact absurd (by simp [statusRead]) hne

/-- Settles O57, by the moves of the render phase: a node call commits to its own channel, the output copy to its own buffer, and the others move the render position only. -/
theorem renderingStaysInItsChannel : Obligations.RenderingStaysInItsChannel := by
  intro s t tx pos htx hst h
  cases renderMove_of_aspStep htx hst h with
  | node u hS hb hk hdesc hwf =>
    exact ⟨fun c hc => List.getElem?_set_ne hc.symm, rfl, rfl, rfl, rfl, rfl, _, rfl, rfl, rfl, rfl, rfl, fun q e he _ => he⟩
  | copy hS hb hk =>
    refine ⟨fun _ _ => rfl, rfl, rfl, rfl, rfl, rfl, _, rfl, rfl, rfl, rfl, choutCopy_channels _ _ _ _, fun q e he hne => ?_⟩
    rw [choutCopy_getElem? _ _ _ he, if_neg hne]
  | _ => exact ⟨fun _ _ => rfl, rfl, rfl, rfl, rfl, rfl, _, rfl, rfl, rfl, rfl, rfl, fun q e he _ => he⟩

end Sys2Proof.Machine
end

section
/-! SUPPORT. Decoding and encoding of command messages (R92 to R105): what the parser accepts is well-formed, and the words of a well-formed node list are read back. -/

namespace Sys2Proof

/-! What is accepted is well-formed. -/

theorem parsePort_wf {p : Params} {ws ws' : List Word} {q : PortSpec} (h : parsePort p ws = .ok (q, ws')) : q.wf p = true := by
  unfold parsePort at h
  repeat' split at h
  all_goals cases h
  all_goals simp_all [PortSpec.wf]

theorem parsePorts_wf {p : Params} {n : Nat} {ws ws' : List Word} {qs : List PortSpec} (h : parsePorts p n ws = .ok (qs, ws')) :
    ∀ q ∈ qs, q.wf p = true := by
  induction n generalizing ws qs with
  | zero =>
    cases h
    simp
  | succ n ih =>
    unfold parsePorts at h
    split at h
    · cases h
    · rename_i q rest hq
      split at h
      · cases h
      · rename_i qs' rest' hqs
        cases h
        exact List.forall_mem_cons.2 ⟨parsePort_wf hq, ih hqs⟩

theorem buildNode_ports {n : Nat} {qs : List PortSpec} {d : NodeDesc} (h : buildNode n qs = some d) : d.ports = qs := by
  unfold buildNode at h
  split at h <;> cases h <;> rfl

theorem parseNode_wf {p : Params} {ws ws' : List Word} {d : NodeDesc} (h : parseNode p ws = .ok (d, ws')) : d.wf p = true := by
  unfold parseNode at h
  repeat' split at h
  all_goals cases h
  rw [NodeDesc.wf, buildNode_ports ‹buildNode _ _ = _›, List.all_eq_true]
  exact parsePorts_wf ‹parsePorts _ _ _ = _›

theorem parseNodes_wf {p : Params} {n : Nat} {ws ws' : List Word} {ds : List NodeDesc} (h : parseNodes p n ws = .ok (ds, ws')) :
    ds.length = n ∧ ∀ d ∈ ds, d.wf p = true := by
  induction n generalizing ws ds with
  | zero =>
    cases h
    simp
  | succ n ih =>
    unfold parseNodes at h
    split at h
    · cases h
    · rename_i d rest hd
      split at h
      · cases h
      · rename_i ds' rest' hds
        cases h
        exact ⟨congrArg (· + 1) (ih hds).1, List.forall_mem_cons.2 ⟨parseNode_wf hd, (ih hds).2⟩⟩

theorem decodePayload_wf {p : Params} {n : BitVec 8} {ws : List Word} {ds : List NodeDesc} (h : decodePayload p n ws = .ok ds) :
    nodesWf p ds = true := by
  unfold decodePayload at h
  repeat' split at h
  all_goals cases h
  obtain ⟨hlen, hall⟩ := parseNodes_wf ‹parseNodes _ _ _ = _›
  have := n.isLt
  simp only [nodesWf, Bool.and_eq_true, decide_eq_true_eq, List.all_eq_true]
  exact ⟨⟨by omega, by omega⟩, hall⟩

theorem decodeCommand_wf {p : Params} {msg : List Word} {i : Instr} (h : decodeCommand p msg = .ok i) : i.wf p = true := by
  unfold decodeCommand at h
  repeat' split at h
  all_goals cases h
  · exact decodePayload_wf ‹decodePayload _ _ _ = _›
  · exact decodePayload_wf ‹decodePayload _ _ _ = _›
  · rfl
  · rfl
  · rfl

/-! The words of a well-formed node list are read back. -/

/-- Bit `i` of a bound PORTW, by the field it lies in (R92). -/
theorem boundPort_getLsbD (k b : BitVec 8) (i : Nat) : (0#16 ++ k ++ b : Word).getLsbD i =
    if i < 8 then b.getLsbD i else if i < 16 then k.getLsbD (i - 8) else false := by
  simp only [BitVec.getLsbD_append, BitVec.getLsbD_zero]
  by_cases h : i < 8
  · rw [if_pos h, if_pos h]
  · have hk : i - 8 < 8 ↔ i < 16 := by omega
    simp only [h, hk, if_false]

theorem field_eq_of_getLsbD {w : Word} {lo width : Nat} {v : BitVec width} (h : ∀ i < width, w.getLsbD (lo + i) = v.getLsbD i) :
    field w lo width = v := by
  apply BitVec.eq_of_getLsbD_eq
  intro i hi
  rw [field_getLsbD, decide_eq_true hi, Bool.true_and, h i hi]

section
variable (k b : BitVec 8)

theorem boundPort_flags (i : Nat) (hi : i < 8) : (0#16 ++ k ++ b : Word).getLsbD i = b.getLsbD i := by
  rw [boundPort_getLsbD, if_pos hi]

theorem boundPort_reserved7 (hb : b.toNat < 2 ^ 2) : field (0#16 ++ k ++ b : Word) 2 6 = 0#6 := by
  refine field_eq_of_getLsbD fun i hi => ?_
  rw [boundPort_flags _ _ _ (by omega), BitVec.getLsbD_zero]
  exact Nat.testBit_lt_two_pow (hb.trans_le (Nat.pow_le_pow_right two_pos (Nat.le_add_right 2 i)))

theorem boundPort_reserved31 : field (0#16 ++ k ++ b : Word) 16 16 = 0#16 := by
  refine field_eq_of_getLsbD fun i hi => ?_
  rw [boundPort_getLsbD, if_neg (by omega), if_neg (by omega), BitVec.getLsbD_zero]

theorem boundPort_reg : field (0#16 ++ k ++ b : Word) 8 8 = k := by
  refine field_eq_of_getLsbD fun i hi => ?_
  rw [boundPort_getLsbD, if_neg (by omega), if_pos (by omega), Nat.add_sub_cancel_left]

end

theorem parsePort_encodePort {p : Params} {q : PortSpec} (h : q.wf p = true) (ws : List Word) :
    parsePort p (encodePort q ++ ws) = .ok (q, ws) := by
  cases q with
  | audio k =>
    have hk : k.toNat < p.na := by simpa [PortSpec.wf] using h
    simp only [encodePort, List.cons_append, List.nil_append, parsePort, boundPort_reserved31, boundPort_reg,
      boundPort_reserved7 k 0x02#8 (by decide), boundPort_flags k 0x02#8 1 (by decide), boundPort_flags k 0x02#8 0 (by decide)]
    simp [hk]
  | control k =>
    have hk : k.toNat < p.nc := by simpa [PortSpec.wf] using h
    simp only [encodePort, List.cons_append, List.nil_append, parsePort, boundPort_reserved31, boundPort_reg,
      boundPort_reserved7 k 0x03#8 (by decide), boundPort_flags k 0x03#8 1 (by decide), boundPort_flags k 0x03#8 0 (by decide)]
    simp [hk]
  | const v => rfl
  | freeAudio => rfl

theorem parsePorts_encodePorts {p : Params} {qs : List PortSpec} (h : ∀ q ∈ qs, q.wf p = true) (ws : List Word) :
    parsePorts p qs.length (qs.flatMap encodePort ++ ws) = .ok (qs, ws) := by
  induction qs with
  | nil => rfl
  | cons q qs ih =>
    obtain ⟨hq, hqs⟩ := List.forall_mem_cons.1 h
    simp only [List.flatMap_cons, List.append_assoc, List.length_cons, parsePorts, parsePort_encodePort hq, ih hqs]

/-- The header of a descriptor: KIND and clean reserved bits (R88). -/
theorem nodeHeader_kind (k : BitVec 4) : field (0#28 ++ k) 0 4 = k := by
  refine field_eq_of_getLsbD fun i hi => ?_
  rw [BitVec.getLsbD_append, Nat.zero_add, if_pos hi]

theorem nodeHeader_reserved (k : BitVec 4) : field (0#28 ++ k) 4 28 = 0#28 := by
  refine field_eq_of_getLsbD fun i hi => ?_
  rw [BitVec.getLsbD_append, if_neg (by omega), BitVec.getLsbD_zero, BitVec.getLsbD_zero]

theorem kindPorts_kind (d : NodeDesc) : kindPorts d.kind.toNat = some d.ports.length := by cases d <;> rfl

theorem buildNode_kind (d : NodeDesc) : buildNode d.kind.toNat d.ports = some d := by cases d <;> rfl

theorem parseNode_encodeNode {p : Params} {d : NodeDesc} (h : d.wf p = true) (ws : List Word) :
    parseNode p (encodeNode d ++ ws) = .ok (d, ws) := by
  have hports := parsePorts_encodePorts (List.all_eq_true.1 h) ws
  simp only [encodeNode, List.cons_append, parseNode, nodeHeader_reserved, nodeHeader_kind, kindPorts_kind, hports,
    buildNode_kind, ne_eq, not_true_eq_false, if_false]

theorem parseNodes_encodeNodes {p : Params} {ds : List NodeDesc} (h : ∀ d ∈ ds, d.wf p = true) (ws : List Word) :
    parseNodes p ds.length (ds.flatMap encodeNode ++ ws) = .ok (ds, ws) := by
  induction ds with
  | nil => rfl
  | cons d ds ih =>
    obtain ⟨hd, hds⟩ := List.forall_mem_cons.1 h
    simp only [List.flatMap_cons, List.append_assoc, List.length_cons, parseNodes, parseNode_encodeNode hd, ih hds]

theorem decodePayload_encodeNodes {p : Params} {ds : List NodeDesc} (h : nodesWf p ds = true) :
    decodePayload p (BitVec.ofNat 8 ds.length) (ds.flatMap encodeNode) = .ok ds := by
  simp only [nodesWf, Bool.and_eq_true, decide_eq_true_eq, List.all_eq_true] at h
  obtain ⟨⟨hcap, hlen⟩, hall⟩ := h
  have hn : (BitVec.ofNat 8 ds.length).toNat = ds.length := by simpa using Nat.mod_eq_of_lt hlen
  have hparse := parseNodes_encodeNodes hall []
  rw [List.append_nil] at hparse
  simp only [decodePayload, hn, if_neg (Nat.not_lt.2 hcap), hparse]

/-- The words of a well-formed setch message are read back (R102, R104). -/
theorem decodeCommand_setch {p : Params} {c : BitVec 8} {ds : List NodeDesc} (h : (Instr.setch c ds).wf p = true) :
    decodeCommand p (encode (.setch c ds)) = .ok (.setch c ds) := by
  simp [encode, decodeCommand, commandHeader_reserved7, commandHeader_reserved31, commandHeader_op, commandHeader_chan,
    commandHeader_nnodes, decodePayload_encodeNodes (p := p) (ds := ds) h]

end Sys2Proof
end

section
/-! SUPPORT. The invariant apart from the transaction: register files, queues, held notes and STATUS, and that every event, command, move and turn keeps it. -/

namespace Sys2Proof.Machine

/-! Channel slots. -/

/-- As many slots as channels, and every active one within its storage bound (R83). -/
def SlotsWf (p : Params) (ch : List (Option Stack)) : Prop :=
  ch.length = p.nch ∧ ∀ slot ∈ ch, ∀ S ∈ slot, S.wf p = true

theorem stackWf_iff {p : Params} {S : Stack} :
    S.wf p = true ↔ S.nodes.length ≤ p.nodeCap ∧ (∀ nd ∈ S.nodes, nd.desc.wf p = true) ∧ S.data.wf p = true := by
  simp only [Stack.wf, decide_eq_true_eq]

theorem stackWf_of_data {p : Params} {S : Stack} (h : S.wf p = true) {d : StackData} (hd : d.wf p = S.data.wf p) :
    Stack.wf p { S with data := d } = true := by
  obtain ⟨hlen, hnodes, hdata⟩ := stackWf_iff.1 h
  exact stackWf_iff.2 ⟨hlen, hnodes, hd.trans hdata⟩

/-- The nodes a well-formed list of descriptors installs, on a register file of the right form, are within the bound. -/
theorem stackWf_install {p : Params} {ds : List NodeDesc} (h : nodesWf p ds = true) {d : StackData} (hd : d.wf p = true) :
    Stack.wf p { nodes := ds.map installNode, data := d } = true := by
  simp only [nodesWf, Bool.and_eq_true, decide_eq_true_eq, List.all_eq_true] at h
  obtain ⟨⟨hcap, -⟩, hall⟩ := h
  refine stackWf_iff.2 ⟨by simpa using hcap, fun nd hnd => ?_, hd⟩
  obtain ⟨desc, hdesc, rfl⟩ := List.mem_map.1 hnd
  rw [installNode_desc]
  exact hall desc hdesc

namespace SlotsWf
variable {p : Params} {ch : List (Option Stack)} (h : SlotsWf p ch)
include h

theorem stack {c : Nat} {S : Stack} (hS : ch[c]? = some (some S)) : S.wf p = true :=
  h.2 _ (List.mem_of_getElem? hS) S rfl

theorem set (c : Nat) {slot : Option Stack} (hslot : ∀ S ∈ slot, S.wf p = true) : SlotsWf p (ch.set c slot) := by
  refine ⟨(List.length_set ..).trans h.1, fun x hx => ?_⟩
  rcases List.mem_or_eq_of_mem_set hx with hmem | rfl
  · exact h.2 x hmem
  · exact hslot

theorem map {f : Stack → Stack} (hf : ∀ S, S.wf p = true → (f S).wf p = true) : SlotsWf p (ch.map (Option.map f)) := by
  refine ⟨(List.length_map ..).trans h.1, fun x hx T hT => ?_⟩
  obtain ⟨slot, hslot, rfl⟩ := List.mem_map.1 hx
  obtain ⟨S, hS, rfl⟩ := Option.mem_map.1 hT
  exact hf S (h.2 slot hslot S hS)

theorem modify (c : Nat) {f : Stack → Stack} (hf : ∀ S, S.wf p = true → (f S).wf p = true) :
    SlotsWf p (ch.modify c (Option.map f)) := by
  cases hslot : ch[c]? with
  | none => rwa [List.modify_eq_self (List.getElem?_eq_none_iff.1 hslot)]
  | some slot =>
    rw [List.modify_eq_set, hslot]
    refine h.set c fun T hT => ?_
    obtain ⟨S, hS, rfl⟩ := Option.mem_map.1 hT
    exact hf S (h.2 slot (List.mem_of_getElem? hslot) S hS)

end SlotsWf

/-! The invariant apart from the transaction. -/

/-- What `State.inv` says of everything but the transaction. -/
structure StoreInv (s : State) : Prop where
  params : s.params.wf = true
  slots : SlotsWf s.params s.ch
  held : s.held.toNat < 2 ^ 128
  count : s.heldCount ≤ 2 ^ s.params.heldW - 1
  status : s.status &&& 0xFFFFFFFC#32 = 0#32
  cmdq : s.cmdq.length ≤ s.params.cmdCap
  mirq : s.mirq.length ≤ s.params.mirrorCap
  noteOns : s.mirq.all isNoteOnWord = true

theorem inv_iff {s : State} : s.inv = true ↔ StoreInv s ∧ ∀ tx, s.tx = some tx → tx.wf s = true := by
  simp only [State.inv, decide_eq_true_eq, Option.mem_def]
  constructor
  · rintro ⟨hparams, hlen, hslots, hheld, hcount, hstatus, hcmdq, hmirq, hnotes, htx⟩
    exact ⟨⟨hparams, ⟨hlen, hslots⟩, hheld, hcount, hstatus, hcmdq, hmirq, hnotes⟩, htx⟩
  · rintro ⟨⟨hparams, ⟨hlen, hslots⟩, hheld, hcount, hstatus, hcmdq, hmirq, hnotes⟩, htx⟩
    exact ⟨hparams, hlen, hslots, hheld, hcount, hstatus, hcmdq, hmirq, hnotes, htx⟩

/-- A power-on reset leaves the invariant, whatever it found. -/
theorem storeInv_powerOn {s : State} (h : s.params.wf = true) : StoreInv (powerOn s) where
  params := h
  slots := ⟨List.length_replicate, fun slot hslot S hS => by
    rw [List.eq_of_mem_replicate hslot] at hS
    cases hS⟩
  held := by simp [powerOn]
  count := Nat.zero_le _
  status := by simp [powerOn]
  cmdq := Nat.zero_le _
  mirq := Nat.zero_le _
  noteOns := rfl

theorem inv_powerOn {s : State} (h : s.params.wf = true) : (powerOn s).inv = true :=
  inv_iff.2 ⟨storeInv_powerOn h, fun _ htx => by cases htx⟩

/-- Settles O51: the reset state is that of a power-on reset under the default parameters. -/
theorem invariantHoldsAtReset : Obligations.InvariantHoldsAtReset :=
  inv_powerOn (s := State.reset) (by decide +kernel)

/-! Events. -/

theorem decodeEvent_noteonWord (c : BitVec 4) (n v : BitVec 7) : decodeEvent (eventWord 0#4 c n v) = .noteon c n v := by
  simp [decodeEvent, eventWord_reserved15, eventWord_reserved31, eventWord_type, eventWord_chan, eventWord_note, eventWord_vel]

theorem isNoteOnWord_noteonWord (c : BitVec 4) (n v : BitVec 7) : isNoteOnWord (eventWord 0#4 c n v) = true := by
  rw [isNoteOnWord, decodeEvent_noteonWord]

/-- A note number is below 128 (R27, R100). -/
theorem bitSet_note_lt {held : BitVec 256} (h : held.toNat < 2 ^ 128) (note : BitVec 7) :
    (bitSet held (noteIndex note)).toNat < 2 ^ 128 := by
  have hn : (noteIndex note).toNat < 128 := by
    have := note.isLt
    rw [noteIndex, BitVec.toNat_setWidth]
    omega
  rw [bitSet, BitVec.toNat_or]
  refine Nat.or_lt_two_pow h ?_
  rw [BitVec.toNat_shiftLeft]
  refine (Nat.mod_le _ _).trans_lt ?_
  simpa [Nat.one_shiftLeft] using Nat.pow_lt_pow_right one_lt_two hn

theorem bitClear_lt {held : BitVec 256} (h : held.toNat < 2 ^ 128) (i : BitVec 8) : (bitClear held i).toNat < 2 ^ 128 := by
  rw [bitClear, BitVec.toNat_and]
  exact Nat.and_le_left.trans_lt h

namespace StoreInv
variable {s : State} (h : StoreInv s)
include h

theorem postEventWrite : StoreInv (postEventWrite s) :=
  { h with slots := h.slots.map fun _ hS => stackWf_of_data hS (writeGatePitch_wf ..) }

theorem retrigger (c : Nat) : StoreInv (retrigger c s) := by
  unfold Machine.retrigger
  split
  · exact { h with slots := h.slots.modify c fun _ hS => stackWf_of_data hS (clearTime_wf ..) }
  · exact { h with slots := h.slots.map fun _ hS => stackWf_of_data hS (clearTime_wf ..) }

theorem mirrorPush {ev : Word} (hev : isNoteOnWord ev = true) : StoreInv (mirrorPush ev s) := by
  unfold Machine.mirrorPush
  split
  next hroom =>
    exact { h with
      mirq := by simpa using hroom
      noteOns := by simp [h.noteOns, hev] }
  next => exact h

theorem midiNoteOn {ev : Word} (hev : isNoteOnWord ev = true) (c : BitVec 4) (note : BitVec 7) :
    StoreInv (midiNoteOn ev c note s) :=
  have hset : StoreInv { s with
      held := bitSet s.held (noteIndex note), heldCount := satInc s.params s.heldCount, pitch := noteFreq s.params note } :=
    { h with
      held := bitSet_note_lt h.held note
      count := Nat.min_le_right _ _ }
  ((hset.mirrorPush hev).retrigger _).postEventWrite

theorem midiNoteOff (note : BitVec 7) : StoreInv (midiNoteOff note s) :=
  have hclear : StoreInv { s with heldCount := satDec s.heldCount, held := bitClear s.held (noteIndex note) } :=
    { h with
      held := bitClear_lt h.held _
      count := (Nat.sub_le _ _).trans h.count }
  hclear.postEventWrite

theorem midiReset : StoreInv (midiReset s) :=
  have hclear : StoreInv { s with heldCount := 0, held := bitClearAll } :=
    { h with
      held := by simp [bitClearAll]
      count := Nat.zero_le _ }
  hclear.postEventWrite

theorem exec_midi {i : Instr} {t : State} (hi : i.family = .midi) (hexec : exec i s = .next t) : StoreInv t := by
  cases i with
  | noteon c n v =>
    obtain rfl := Host.Outcome.next.inj hexec
    split
    · exact h.midiNoteOff n
    · exact h.midiNoteOn (isNoteOnWord_noteonWord c n v) c n
  | noteoff c n v => obtain rfl := Host.Outcome.next.inj hexec; exact h.midiNoteOff n
  | reset c n v => obtain rfl := Host.Outcome.next.inj hexec; exact h.midiReset
  | other w =>
    obtain rfl := Host.Outcome.next.inj hexec
    unfold midiOther
    split
    · exact h.postEventWrite
    · exact h
  | _ => cases hi

/-! Commands. -/

theorem raiseStatus (e : StatusEvent) : StoreInv (raiseStatus e s) :=
  { h with
    status := by
      have hbit : statusBit e &&& 0xFFFFFFFC#32 = 0#32 := by cases e <;> decide
      rw [raiseStatus_status, BitVec.and_or_distrib_right, h.status, hbit, BitVec.or_zero] }

theorem setSlot (c : Nat) {slot : Option Stack} (hslot : ∀ S ∈ slot, S.wf s.params = true) : StoreInv (setSlot s c slot) :=
  { h with slots := h.slots.set c hslot }

theorem replaceNodes (c : Nat) {ds : List NodeDesc} (hds : nodesWf s.params ds = true) :
    StoreInv (replaceNodes c (ds.map installNode) s) :=
  { h with slots := h.slots.modify c fun _ hS => stackWf_install hds (stackWf_iff.1 hS).2.2 }

theorem resetData : StoreInv (resetData s) :=
  { h with
    slots := h.slots.map fun _ hS => stackWf_of_data hS ((zeroStackData_wf _).trans (stackWf_iff.1 hS).2.2.symm) }

theorem exec_command {i : Instr} {t : State} (hi : i.family = .command) (hwf : i.wf s.params = true)
    (hexec : exec i s = .next t) : StoreInv t := by
  cases i with
  | setch c ds =>
    obtain rfl := Host.Outcome.next.inj hexec
    split
    · exact h.setSlot _ fun _ hS => Option.mem_some.1 hS ▸ stackWf_install hwf (zeroStackData_wf _)
    · exact h
  | replace c ds =>
    obtain rfl := Host.Outcome.next.inj hexec
    split
    · exact h.replaceNodes _ hwf
    · exact h
  | rmch c =>
    obtain rfl := Host.Outcome.next.inj hexec
    split
    · exact h.setSlot _ fun _ hS => by cases hS
    · exact h
  | resetdata => obtain rfl := Host.Outcome.next.inj hexec; exact h.resetData
  | addnode c n ws => obtain rfl := Host.Outcome.next.inj hexec; exact h.raiseStatus _
  | _ => cases hi

/-! Moves of the ASP, and the controller's turns. -/

theorem commitNode {tx : Tx} {pos : RenderPos} {S : Stack} {nd nd' : Node} {d : StackData} (u : Nat)
    (hS : s.stack pos.c = some S) (hk : S.nodes[pos.k]? = some nd) (hdesc : nd'.desc = nd.desc)
    (hd : ∀ p, d.wf p = S.data.wf p) : StoreInv (commitNode s tx pos S nd' d u) := by
  obtain ⟨hlen, hnodes, hdata⟩ := stackWf_iff.1 (h.slots.stack (stack_eq_some.1 hS))
  refine { h with slots := h.slots.set _ fun T hT => ?_ }
  obtain rfl := Option.mem_some.1 hT
  refine stackWf_iff.2 ⟨(List.length_set ..).trans_le hlen, fun x hx => ?_, (hd _).trans hdata⟩
  rcases List.mem_or_eq_of_mem_set hx with hmem | rfl
  · exact hnodes x hmem
  · rw [hdesc]
    exact hnodes nd (List.mem_of_getElem? hk)

theorem setTx (tx : Option Tx) : StoreInv { s with tx := tx } := { h with }

theorem aspMove {t : State} (hmove : AspMove s t) : StoreInv t := by
  cases hmove with
  | pop htx hst hq => exact { h with cmdq := (Nat.le_succ _).trans (by simpa [hq] using h.cmdq) }
  | malformed htx hst => exact (h.setTx _).raiseStatus _
  | command htx hst hdec hexec =>
    exact (h.setTx (some _)).exec_command (decodeCommand_family hdec) (decodeCommand_wf hdec) hexec
  | event htx hst hev hexec => exact (h.setTx _).exec_midi (decodeEvent_family _) hexec
  | render htx hst hrender =>
    cases hrender with
    | node u hS hb hk hdesc hd => exact h.commitNode u hS hk hdesc hd
    | _ => exact { h with }
  | _ => exact { h with }

theorem cmdPush (msg : List Word) : StoreInv (cmdPush msg s) := by
  unfold Machine.cmdPush
  split
  next hroom => exact { h with cmdq := by simpa using hroom }
  next => exact { h with }

theorem mirrorPop : StoreInv (mirrorPop s) := by
  unfold Machine.mirrorPop
  split
  next => exact { h with }
  next hq =>
    have hmirq := h.mirq
    have hnotes := h.noteOns
    rw [hq] at hmirq hnotes
    exact { h with
      mirq := (Nat.le_succ _).trans hmirq
      noteOns := (Bool.and_eq_true_iff.1 hnotes).2 }

theorem writeStatus (w : Word) : StoreInv (writeStatus w s) :=
  { h with
    status := by
      rw [writeStatus_status, BitVec.and_assoc, BitVec.and_comm (~~~_), ← BitVec.and_assoc, h.status, BitVec.zero_and] }

end StoreInv

end Sys2Proof.Machine
end

section
/-! SUPPORT. The invariant of a transaction in progress (R146, R209, R214), kept by every move of the ASP and every turn. -/

namespace Sys2Proof.Machine

/-- The transaction's length is the driver's buffer's, and one that `L_MAX` allows (R205). -/
def FitsBuffer (s : State) (tx : Tx) : Prop := tx.len = s.outBuf.length ∧ tooLong s.params tx.len = false

/-- A render buffer of `L` samples for each active channel, and no other (R75). -/
def BuffersWf (s : State) (tx : Tx) : Prop :=
  tx.chout.map Prod.fst = s.activeChannels ∧ ∀ e ∈ tx.chout, e.2.length = tx.len

/-- The render position is one that R146 and R209 can reach. -/
structure PosWf (s : State) (tx : Tx) (pos : RenderPos) : Prop where
  channel : pos.c ≤ s.params.nch
  offset : pos.b ≤ tx.len
  chunk : pos.n = min 256 (tx.len - pos.b)
  empty : s.stack pos.c = none → pos.b = 0 ∧ pos.k = 0
  active : ∀ S, s.stack pos.c = some S → pos.k ≤ S.nodes.length ∧ (pos.b < tx.len ∨ pos.k = 0)

/-- The stages before the render phase. -/
def Stage.beforeRender : Stage → Bool
  | .drain | .apply _ | .midi => true
  | .render _ | .output _ => false

section
variable {s : State} {tx : Tx}

theorem txWf_beforeRender (hst : tx.stage.beforeRender = true) : tx.wf s = true ↔ FitsBuffer s tx ∧ tx.chout = [] := by
  cases h : tx.stage <;> simp_all [Tx.wf, FitsBuffer, Stage.beforeRender]

/-- A transaction that stays before the render phase keeps its invariant. -/
theorem txWf_of_beforeRender {t : State} {tx' : Tx} (h : tx.wf s = true) (hst : tx.stage.beforeRender = true)
    (hst' : tx'.stage.beforeRender = true) (hlen : tx'.len = tx.len) (hchout : tx'.chout = tx.chout)
    (hp : t.params = s.params) (hbuf : t.outBuf = s.outBuf) : tx'.wf t = true := by
  obtain ⟨⟨hfits, hlong⟩, hnone⟩ := (txWf_beforeRender hst).1 h
  refine (txWf_beforeRender hst').2 ⟨⟨?_, ?_⟩, hchout.trans hnone⟩
  · rw [hlen, hfits, hbuf]
  · rw [hp, hlen, hlong]

theorem txWf_render {pos : RenderPos} (hst : tx.stage = .render pos) :
    tx.wf s = true ↔ FitsBuffer s tx ∧ PosWf s tx pos ∧ BuffersWf s tx := by
  simp only [Tx.wf, hst, Bool.and_eq_true, decide_eq_true_eq, Option.mem_def, FitsBuffer, BuffersWf]
  refine and_congr_right fun _ => ⟨?_, ?_⟩
  · rintro ⟨hc, hb, hn, hempty, hactive, hbufs⟩
    exact ⟨⟨hc, hb, hn, hempty, hactive⟩, hbufs⟩
  · rintro ⟨⟨hc, hb, hn, hempty, hactive⟩, hbufs⟩
    exact ⟨hc, hb, hn, hempty, hactive, hbufs⟩

theorem txWf_output {j : Nat} (hst : tx.stage = .output j) :
    tx.wf s = true ↔ FitsBuffer s tx ∧ j ≤ tx.len ∧ BuffersWf s tx := by
  simp only [Tx.wf, hst, Bool.and_eq_true, decide_eq_true_eq, FitsBuffer, BuffersWf]

/-- The start of a channel is a render position. -/
theorem posWf_channelStart {c : Nat} (hc : c ≤ s.params.nch) : PosWf s tx (channelStart c tx.len) where
  channel := hc
  offset := Nat.zero_le _
  chunk := rfl
  empty _ := ⟨rfl, rfl⟩
  active _ _ := ⟨Nat.zero_le _, .inr rfl⟩

/-- The invariant of a transaction reads the parameters, the channels and the length of the driver's buffer only. -/
theorem txWf_congr {t : State} (hp : t.params = s.params) (hch : t.ch = s.ch) (hbuf : t.outBuf = s.outBuf) (tx : Tx) :
    tx.wf t = tx.wf s := by
  have hstack : t.stack = s.stack := by
    funext c
    rw [State.stack, State.stack, hch]
  have hactive : t.activeChannels = s.activeChannels := by rw [State.activeChannels, State.activeChannels, hch, hstack]
  unfold Tx.wf
  rw [hp, hbuf, hstack, hactive]

/-- A node call opens and empties no channel (R80). -/
theorem activeChannels_commitNode {pos : RenderPos} {S : Stack} (hS : s.stack pos.c = some S) (nd : Node) (d : StackData) (u : Nat) :
    (commitNode s tx pos S nd d u).activeChannels = s.activeChannels := by
  unfold State.activeChannels
  rw [commitNode_ch, List.length_set]
  refine List.filter_congr fun c _ => ?_
  by_cases hc : c = pos.c
  · rw [hc, stack_commitNode_self _ _ _ _ _ _ (lt_of_stack hS), hS]
    rfl
  · rw [stack_commitNode_ne _ _ _ _ _ _ hc]

/-- A move of the render phase leaves the transaction where R146 and R209 can be. -/
theorem txWf_of_renderMove {pos : RenderPos} {t : State} (hs : StoreInv s) (hst : tx.stage = .render pos) (hwf : tx.wf s = true)
    (hmove : RenderMove s tx pos t) : ∀ tx', t.tx = some tx' → tx'.wf t = true := by
  obtain ⟨hfits, hpos, hbufs⟩ := (txWf_render hst).1 hwf
  cases hmove with
  | @node S nd nd' d u hS hb hk hdesc hd =>
    rintro _ ⟨⟩
    refine (txWf_render rfl).2 ⟨hfits, ?_, ?_, hbufs.2⟩
    · have hself := stack_commitNode_self tx pos S nd' d u (lt_of_stack hS)
      refine ⟨hpos.channel, hpos.offset, hpos.chunk, fun hnone => ?_, fun T hT => ?_⟩
      · rw [hself] at hnone
        cases hnone
      · obtain rfl := Option.some.inj (hself.symm.trans hT)
        rw [List.length_set]
        exact ⟨(List.getElem?_eq_some_iff.1 hk).1, .inl hb⟩
    · rw [activeChannels_commitNode hS]
      exact hbufs.1
  | copy hS hb hk =>
    rintro _ ⟨⟩
    refine (txWf_render rfl).2 ⟨hfits, ?_, (choutCopy_channels ..).trans hbufs.1, choutCopy_length hbufs.2⟩
    refine ⟨hpos.channel, ?_, rfl, fun hnone => ?_, fun _ _ => ⟨Nat.zero_le _, .inr rfl⟩⟩
    · have hn := hpos.chunk
      simp only
      omega
    · cases hS.symm.trans hnone
  | channelDone hS hb =>
    rintro _ ⟨⟩
    exact (txWf_render rfl).2 ⟨hfits, posWf_channelStart (hs.slots.1 ▸ lt_of_stack hS), hbufs⟩
  | channelEmpty hS hc =>
    rintro _ ⟨⟩
    exact (txWf_render rfl).2 ⟨hfits, posWf_channelStart hc, hbufs⟩
  | rendered hS hc =>
    rintro _ ⟨⟩
    exact (txWf_output rfl).2 ⟨hfits, Nat.zero_le _, hbufs⟩

theorem txWf_of_aspMove {t : State} (hs : StoreInv s) (hwf : ∀ tx, s.tx = some tx → tx.wf s = true) (hmove : AspMove s t) :
    ∀ tx, t.tx = some tx → tx.wf t = true := by
  cases hmove with
  | idle => exact hwf
  | stop htx => exact fun _ h => by cases htx.symm.trans h
  | start htx hb hlong =>
    rintro _ ⟨⟩
    exact (txWf_beforeRender rfl).2 ⟨⟨rfl, hlong⟩, rfl⟩
  | pop htx hst hq =>
    rintro _ ⟨⟩
    exact txWf_of_beforeRender (hwf _ htx) (by rw [hst]; rfl) rfl rfl rfl rfl rfl
  | drained htx hst hq =>
    rintro _ ⟨⟩
    exact txWf_of_beforeRender (hwf _ htx) (by rw [hst]; rfl) rfl rfl rfl rfl rfl
  | malformed htx hst =>
    rintro _ ⟨⟩
    exact txWf_of_beforeRender (hwf _ htx) (by rw [hst]; rfl) rfl rfl rfl rfl rfl
  | command htx hst hdec hexec =>
    rw [(exec_command_frame (decodeCommand_family hdec) hexec).1]
    rintro _ ⟨⟩
    exact txWf_of_beforeRender (hwf _ htx) (by rw [hst]; rfl) rfl rfl rfl rfl rfl
  | event htx hst hev hexec =>
    rw [exec_midi_frame (decodeEvent_family _) hexec]
    rintro _ ⟨⟩
    exact txWf_of_beforeRender (hwf _ htx) (by rw [hst]; rfl) (by rw [hst]; rfl) rfl rfl rfl rfl
  | beginRender htx hst hev =>
    obtain ⟨hfits, -⟩ := (txWf_beforeRender (by rw [hst]; rfl)).1 (hwf _ htx)
    rintro _ ⟨⟩
    exact (txWf_render rfl).2 ⟨hfits, posWf_channelStart (Nat.zero_le _), freshBuffers_channels .., fun _ => freshBuffers_length⟩
  | render htx hst hrender => exact txWf_of_renderMove hs hst (hwf _ htx) hrender
  | sample v d htx hst hj =>
    obtain ⟨⟨hlen, hlong⟩, -, hbufs⟩ := (txWf_output hst).1 (hwf _ htx)
    rintro _ ⟨⟩
    exact (txWf_output rfl).2 ⟨⟨hlen.trans (List.length_set ..).symm, hlong⟩, hj, hbufs⟩
  | finish => exact fun _ h => by cases h

end

theorem inv_of_aspStep {s t : State} (h : s.inv = true) (hstep : aspStep s = .next t) : t.inv = true := by
  obtain ⟨hs, htx⟩ := inv_iff.1 h
  have hmove := aspMove_of_aspStep hstep
  exact inv_iff.2 ⟨hs.aspMove hmove, txWf_of_aspMove hs htx hmove⟩

/-- A turn that keeps the parameters, the channels, the transaction and the driver's buffer keeps the transaction's invariant. -/
theorem inv_of_store {s t : State} (h : s.inv = true) (hstore : StoreInv t) (hp : t.params = s.params) (hch : t.ch = s.ch)
    (hbuf : t.outBuf = s.outBuf) (htx : t.tx = s.tx) : t.inv = true := by
  refine inv_iff.2 ⟨hstore, fun tx ht => ?_⟩
  rw [txWf_congr hp hch hbuf]
  exact (inv_iff.1 h).2 tx (htx ▸ ht)

theorem inv_of_turnStep {x : Turn} {s t : State} (h : s.inv = true) (hturn : turnStep x s = .next t) : t.inv = true := by
  have hs := (inv_iff.1 h).1
  cases x with
  | asp => exact inv_of_aspStep h hturn
  | push msg =>
    obtain rfl := Host.Outcome.next.inj hturn
    exact inv_of_store h (hs.cmdPush msg) (by simp) (by simp) (by simp) (by simp)
  | popMirror =>
    obtain rfl := Host.Outcome.next.inj hturn
    exact inv_of_store h hs.mirrorPop (by simp) (by simp) (by simp) (by simp)
  | readStatus =>
    obtain rfl := Host.Outcome.next.inj hturn
    exact inv_of_store h { hs with } rfl rfl rfl rfl
  | writeStatus w =>
    obtain rfl := Host.Outcome.next.inj hturn
    exact inv_of_store h (hs.writeStatus w) rfl rfl rfl rfl
  | powerOn =>
    obtain rfl := Host.Outcome.next.inj hturn
    exact inv_powerOn hs.params

/-- Settles O52, by whose turn it is: the ASP's moves keep both halves of the invariant, and the other turns touch no transaction, or leave none. -/
theorem everyStepKeepsTheInvariant : Obligations.EveryStepKeepsTheInvariant := by
  intro s t h hstep
  have hturns : ({ s with turns := s.turns.tail } : State).inv = true := h
  exact inv_of_turnStep hturns (turnStep_of_step hstep)

end Sys2Proof.Machine
end

section
/-! SUPPORT. Runs of the machine, and what the steps of a run do to the host's turns and calls. -/

namespace Sys2Proof.Machine

theorem run_succ {s t : State} (h : step s = .next t) (k : Nat) : core.run (k + 1) s = core.run k t := by
  have hcore : core.step s = .next t := h
  simp only [Host.Core.run, hcore]

theorem exists_step_of_run {k : Nat} {s u : State} (h : core.run (k + 1) s = .next u) :
    ∃ t, step s = .next t ∧ core.run k t = .next u := by
  have hcore : core.step s = step s := rfl
  simp only [Host.Core.run, hcore] at h
  cases hstep : step s with
  | next t => exact ⟨t, rfl, by simpa only [hstep] using h⟩
  | fault r => cases r
  | refused r => simp only [hstep] at h; cases h

theorem run_aspStep {s t : State} (hwf : s.params.wf = true) (hturns : s.turns = []) (h : aspStep s = .next t) (k : Nat) :
    core.run (k + 1) s = core.run k t :=
  run_succ ((step_of_no_turns hwf hturns).trans h) k

/-- A move of the ASP consumes no turn, and begins a transaction only by taking the driver's next call. -/
theorem AspMove.host {s t : State} (h : AspMove s t) :
    t.turns = s.turns ∧ ((t.blocks = s.blocks ∧ (s.tx = none → t.tx = none)) ∨ ∃ blk, s.blocks = blk :: t.blocks) := by
  have hbusy {tx : Tx} {o : Option Tx} (htx : s.tx = some tx) : s.tx = none → o = none := fun hnone => by
    cases htx.symm.trans hnone
  cases h with
  | idle htx hb => exact ⟨rfl, .inl ⟨rfl, id⟩⟩
  | stop htx hb => exact ⟨rfl, .inr ⟨_, hb⟩⟩
  | start htx hb => exact ⟨rfl, .inr ⟨_, hb⟩⟩
  | command htx hst hdec hexec =>
    rw [(exec_command_frame (decodeCommand_family hdec) hexec).1]
    exact ⟨rfl, .inl ⟨rfl, hbusy htx⟩⟩
  | event htx hst hev hexec =>
    rw [exec_midi_frame (decodeEvent_family _) hexec]
    exact ⟨rfl, .inl ⟨rfl, hbusy htx⟩⟩
  | render htx hst hrender => cases hrender <;> exact ⟨rfl, .inl ⟨rfl, hbusy htx⟩⟩
  | finish => exact ⟨rfl, .inl ⟨rfl, fun _ => rfl⟩⟩
  | pop htx | drained htx | malformed htx | beginRender htx | sample _ _ htx => exact ⟨rfl, .inl ⟨rfl, hbusy htx⟩⟩

/-- What a turn that is neither the ASP's nor a reset leaves alone. -/
structure HostFrame (s t : State) : Prop where
  params : t.params = s.params
  ch : t.ch = s.ch
  midi : t.midi = s.midi
  tx : t.tx = s.tx
  blocks : t.blocks = s.blocks
  status : s.status = 0#32 → t.status = 0#32
  mirq : s.mirq = [] → t.mirq = []

theorem hostFrame_of_turnStep {x : Turn} {s t : State} (hasp : x ≠ .asp) (hreset : x ≠ .powerOn) (h : turnStep x s = .next t) :
    HostFrame s t ∧ (x.isPush = false → t.cmdq = s.cmdq) := by
  cases x with
  | asp => exact absurd rfl hasp
  | powerOn => exact absurd rfl hreset
  | push msg =>
    obtain rfl := Host.Outcome.next.inj h
    exact ⟨by constructor <;> simp [State.midi], nofun⟩
  | popMirror =>
    obtain rfl := Host.Outcome.next.inj h
    exact ⟨by constructor <;> simp +contextual [State.midi], fun _ => mirrorPop_cmdq s⟩
  | readStatus =>
    obtain rfl := Host.Outcome.next.inj h
    exact ⟨⟨rfl, rfl, rfl, rfl, rfl, id, id⟩, fun _ => rfl⟩
  | writeStatus w =>
    obtain rfl := Host.Outcome.next.inj h
    refine ⟨⟨rfl, rfl, rfl, rfl, rfl, fun hs => ?_, id⟩, fun _ => rfl⟩
    rw [writeStatus_status, hs, BitVec.zero_and]

/-- A step whose turn is no reset is the ASP's, or leaves alone what the host's turns do. -/
theorem aspStep_or_hostFrame_of_step {s t : State} (hreset : s.turns.headD .asp ≠ .powerOn) (h : step s = .next t) :
    aspStep { s with turns := s.turns.tail } = .next t ∨
      HostFrame s t ∧ ((s.turns.headD .asp).isPush = false → t.cmdq = s.cmdq) := by
  have hturn := turnStep_of_step h
  by_cases hasp : s.turns.headD .asp = .asp
  · rw [hasp] at hturn
    exact .inl hturn
  · obtain ⟨hframe, hcmdq⟩ := hostFrame_of_turnStep hasp hreset hturn
    exact .inr ⟨{ hframe with }, hcmdq⟩

theorem turns_of_turnStep {x : Turn} {s t : State} (h : turnStep x s = .next t) : t.turns = s.turns := by
  cases x with
  | asp => exact (aspMove_of_aspStep h).host.1
  | _ =>
    obtain rfl := Host.Outcome.next.inj h
    simp [statusRead, powerOn]

theorem turns_of_step {s t : State} (h : step s = .next t) : t.turns = s.turns.tail :=
  turns_of_turnStep (turnStep_of_step h)

/-- A run of `k` steps consumes the first `k` turns. -/
theorem turns_of_run {k : Nat} {s t : State} (h : core.run k s = .next t) : t.turns = s.turns.drop k := by
  induction k generalizing s with
  | zero =>
    cases h
    rfl
  | succ k ih =>
    obtain ⟨u, hstep, hrun⟩ := exists_step_of_run h
    rw [ih hrun, turns_of_step hstep, List.drop_tail]

/-- The turn of the step after a run of `k` steps is among the first `k + 1` turns. -/
theorem admitted_headD_of_run {admitted : Turn → Prop} (hasp : admitted .asp) {k : Nat} {s t : State} (h : core.run k s = .next t)
    (hturns : ∀ x ∈ s.turns.take (k + 1), admitted x) : admitted (t.turns.headD .asp) := by
  rw [turns_of_run h, List.headD_eq_head?_getD, List.head?_drop]
  cases hx : s.turns[k]? with
  | none => exact hasp
  | some x => exact hturns x (by rw [List.take_add_one, hx]; simp)

/-- An induction over a run: what every step with an admitted turn keeps holds after it. -/
theorem run_keeps {I : State → Prop} {admitted : Turn → Prop} (hasp : admitted .asp)
    (hstep : ∀ s t, I s → admitted (s.turns.headD .asp) → step s = .next t → I t) {k : Nat} {s t : State} (hs : I s)
    (hturns : ∀ x ∈ s.turns.take k, admitted x) (hrun : core.run k s = .next t) : I t := by
  induction k generalizing s with
  | zero =>
    cases hrun
    exact hs
  | succ k ih =>
    obtain ⟨u, hu, hrest⟩ := exists_step_of_run hrun
    have htail := turns_of_step hu
    cases hl : s.turns with
    | nil =>
      refine ih (hstep s u hs (by rw [hl]; exact hasp) hu) (fun x hx => ?_) hrest
      rw [htail, hl] at hx
      simp at hx
    | cons x rest =>
      rw [hl, List.take_succ_cons, List.forall_mem_cons] at hturns
      refine ih (hstep s u hs (by rw [hl]; exact hturns.1) hu) ?_ hrest
      rw [htail, hl]
      exact hturns.2

end Sys2Proof.Machine
end

section
/-! SUPPORT. Installing a configuration (R190, R249): what a list of setch messages leaves in the channel slots, and the steps of a block of no samples. -/

namespace Sys2Proof.Machine

/-- What a setch message installs (R190). -/
def installedStack (p : Params) (ds : List NodeDesc) : Stack := { nodes := ds.map installNode, data := zeroStackData p }

/-- The channel slots after the messages of a configuration, in order. -/
def installAll (p : Params) (cfg : SetupList) (ch : List (Option Stack)) : List (Option Stack) :=
  cfg.foldl (fun ch e => ch.set e.1.toNat (some (installedStack p e.2))) ch

/-- The messages of a configuration (R104). -/
def setupMessages (cfg : SetupList) : List (List Word) := cfg.map fun e => encode (.setch e.1 e.2)

/-- Each message is well-formed, and its channel is in range. -/
def SetupList.InRange (p : Params) (cfg : SetupList) : Prop :=
  ∀ e ∈ cfg, (Instr.setch e.1 e.2).wf p = true ∧ e.1.toNat < p.nch

theorem installAll_append (p : Params) (cfg : SetupList) (e : BitVec 8 × List NodeDesc) (ch : List (Option Stack)) :
    installAll p (cfg ++ [e]) ch = (installAll p cfg ch).set e.1.toNat (some (installedStack p e.2)) := by
  simp [installAll]

@[simp] theorem installAll_length (p : Params) (cfg : SetupList) (ch : List (Option Stack)) :
    (installAll p cfg ch).length = ch.length := by
  induction cfg using List.reverseRecOn with
  | nil => rfl
  | append_singleton cfg e ih => rw [installAll_append, List.length_set, ih]

theorem slot_append (p : Params) (cfg : SetupList) (e : BitVec 8 × List NodeDesc) (c : Nat) (old : Option Stack) :
    SetupList.slot p (cfg ++ [e]) c old = if e.1.toNat = c then some (installedStack p e.2) else SetupList.slot p cfg c old := by
  unfold SetupList.slot
  rw [List.reverse_append, List.reverse_singleton, List.singleton_append, List.find?_cons]
  by_cases hc : e.1.toNat = c
  · simp [hc, installedStack]
  · simp [hc]

/-- Each slot ends with what the last message naming its channel installs (R188). -/
theorem installAll_getElem? {p : Params} {ch : List (Option Stack)} {c : Nat} {old : Option Stack} (hc : ch[c]? = some old)
    (cfg : SetupList) : (installAll p cfg ch)[c]? = some (cfg.slot p c old) := by
  induction cfg using List.reverseRecOn with
  | nil => exact hc
  | append_singleton cfg e ih =>
    rw [installAll_append, slot_append]
    by_cases he : e.1.toNat = c
    · rw [if_pos he, ← he, List.getElem?_set_self]
      rw [installAll_length, he]
      exact (List.getElem?_eq_some_iff.1 hc).1
    · rw [if_neg he, List.getElem?_set_ne he, ih]

section
variable {s : State} {tx : Tx}

/-- A popped setch message for a channel in range fills its slot (R190). -/
theorem aspStep_setch {c : BitVec 8} {ds : List NodeDesc} (htx : s.tx = some tx) (hst : tx.stage = .apply (encode (.setch c ds)))
    (hwf : (Instr.setch c ds).wf s.params = true) (hc : c.toNat < s.params.nch) :
    aspStep s = .next { s with
      ch := s.ch.set c.toNat (some (installedStack s.params ds)), tx := some { tx with stage := .drain } } := by
  rw [aspStep_apply htx hst]
  simp only [runCommand, decodeCommand_setch hwf, exec, execSetch, if_pos hc]
  rfl

/-- In a block of no samples a channel slot is left at once, active or not. -/
theorem aspStep_nextChannel {pos : RenderPos} (htx : s.tx = some tx) (hst : tx.stage = .render pos) (hlen : tx.len = 0)
    (hc : pos.c < s.params.nch) :
    aspStep s = .next { s with tx := some { tx with stage := .render (channelStart (pos.c + 1) tx.len) } } := by
  cases hS : s.stack pos.c with
  | none => exact aspStep_channelEmpty htx hst hS hc
  | some S => exact aspStep_channelDone htx hst hS (hlen ▸ Nat.zero_le _)

/-- Popping a setch message and applying it are two steps (log entry 4). -/
theorem run_setch {c : BitVec 8} {ds : List NodeDesc} {rest : List (List Word)} (hwf : s.params.wf = true) (hturns : s.turns = [])
    (htx : s.tx = some tx) (hst : tx.stage = .drain) (hq : s.cmdq = encode (.setch c ds) :: rest)
    (hmsg : (Instr.setch c ds).wf s.params = true) (hc : c.toNat < s.params.nch) (k : Nat) :
    core.run (k + 2) s = core.run k { s with
      cmdq := rest
      ch := s.ch.set c.toNat (some (installedStack s.params ds))
      tx := some { tx with stage := .drain } } :=
  (run_aspStep hwf hturns (aspStep_pop htx hst hq) (k + 1)).trans
    (run_aspStep (s := { s with cmdq := rest, tx := some { tx with stage := .apply (encode (.setch c ds)) } }) hwf hturns
      (aspStep_setch rfl rfl hmsg hc) k)

/-- A drain of setch messages only installs them all, and goes on to the events (R188, R207). -/
theorem run_drain_setup {cfg : SetupList} (hwf : s.params.wf = true) (hturns : s.turns = []) (htx : s.tx = some tx)
    (hst : tx.stage = .drain) (hq : s.cmdq = setupMessages cfg) (hcfg : cfg.InRange s.params) :
    core.run (2 * cfg.length + 1) s =
      .next { s with cmdq := [], ch := installAll s.params cfg s.ch, tx := some { tx with stage := .midi } } := by
  induction cfg generalizing s tx with
  | nil =>
    have hq : s.cmdq = [] := hq
    refine (run_aspStep hwf hturns (aspStep_drained htx hst hq) 0).trans ?_
    rw [← hq]
    rfl
  | cons e cfg ih =>
    obtain ⟨⟨hmsg, hrange⟩, hrest⟩ := List.forall_mem_cons.1 hcfg
    refine (run_setch hwf hturns htx hst hq hmsg hrange (2 * cfg.length + 1)).trans ?_
    exact ih (s := { s with
      cmdq := setupMessages cfg
      ch := s.ch.set e.1.toNat (some (installedStack s.params e.2))
      tx := some { tx with stage := .drain } }) (tx := { tx with stage := .drain }) hwf hturns rfl rfl rfl hrest

/-- In a block of no samples the render phase passes over the channel slots that are left. -/
theorem run_render_empty {c n : Nat} (hwf : s.params.wf = true) (hturns : s.turns = []) (htx : s.tx = some tx)
    (hst : tx.stage = .render (channelStart c tx.len)) (hlen : tx.len = 0) (hch : s.ch.length = s.params.nch)
    (hn : c + n = s.params.nch) : core.run (n + 1) s = .next { s with tx := some { tx with stage := .output 0 } } := by
  induction n generalizing s tx c with
  | zero =>
    have hnone : s.stack c = none := stack_eq_none.2 (.inl (List.getElem?_eq_none (by omega)))
    exact run_aspStep hwf hturns (aspStep_rendered htx hst hnone (le_of_eq hn.symm)) 0
  | succ n ih =>
    have hc : c < s.params.nch := by omega
    refine (run_aspStep hwf hturns (aspStep_nextChannel htx hst hlen hc) _).trans ?_
    exact ih (s := { s with tx := some { tx with stage := .render (channelStart (c + 1) tx.len) } })
      (tx := { tx with stage := .render (channelStart (c + 1) tx.len) }) (c := c + 1)
      hwf hturns rfl rfl hlen hch (Nat.succ_add_eq_add_succ c n ▸ hn)

end

end Sys2Proof.Machine
end

section
/-! SUPPORT. The installing transaction (R249): the phases it goes through under the host's turns, and its run when no turn is listed. -/

namespace Sys2Proof.Machine

/-! The phases. -/

/-- The engine but for the channels is as a reset leaves it (R245). -/
structure FreshEngine (p : Params) (s : State) : Prop where
  params : s.params = p
  midi : s.midi = (p.pitchInit, 0#256, 0)
  status : s.status = 0#32
  mirq : s.mirq = []

/-- The transaction in progress is of no samples and has no events left. -/
def InEmptyBlock (s : State) (stage : Stage) : Prop :=
  ∃ tx, s.tx = some tx ∧ tx.stage = stage ∧ tx.events = [] ∧ tx.len = 0

/-- The connected call of no samples and no events (R249). -/
def emptyCall (rate : BitVec 32) : BlockIn := { events := [], buffer := [], rate := rate, connected := true }

/-- Up to the end of the drain: the call is still to come, or some of the messages are applied and the others wait in CMDQ. -/
inductive Installing (p : Params) (cfg : SetupList) (later : List BlockIn) (s : State) : Prop
  | waiting (rate : BitVec 32) : FreshEngine p s → s.tx = none → s.blocks = emptyCall rate :: later →
      s.cmdq = setupMessages cfg → s.ch = List.replicate p.nch none → Installing p cfg later s
  | draining (done rest : SetupList) : FreshEngine p s → cfg = done ++ rest → InEmptyBlock s .drain → s.blocks = later →
      s.cmdq = setupMessages rest → s.ch = installAll p done (List.replicate p.nch none) → Installing p cfg later s
  | applying (done rest : SetupList) (e : BitVec 8 × List NodeDesc) : FreshEngine p s → cfg = done ++ e :: rest →
      InEmptyBlock s (.apply (encode (.setch e.1 e.2))) → s.blocks = later →
      s.cmdq = setupMessages rest → s.ch = installAll p done (List.replicate p.nch none) → Installing p cfg later s

/-- From the end of the drain to the end of the transaction. -/
structure AfterDrain (p : Params) (cfg : SetupList) (later : List BlockIn) (s : State) : Prop where
  engine : FreshEngine p s
  tx : ∃ stage, InEmptyBlock s stage ∧ (stage = .midi ∨ stage.beforeRender = false)
  blocks : s.blocks = later
  ch : s.ch = installAll p cfg (List.replicate p.nch none)

/-- The transaction has returned. -/
structure Returned (p : Params) (cfg : SetupList) (later : List BlockIn) (s : State) : Prop where
  engine : FreshEngine p s
  tx : s.tx = none
  result : s.result = some .cont
  blocks : s.blocks = later
  ch : s.ch = installAll p cfg (List.replicate p.nch none)

/-- The installing transaction is over: one in progress has taken a further call. -/
def PastInstalling (later : List BlockIn) (s : State) : Prop :=
  s.blocks.length ≤ later.length ∧ (s.tx ≠ none → s.blocks.length < later.length)

section
variable {p : Params} {cfg : SetupList} {later : List BlockIn} {s t : State}

/-! What the host's turns leave of a phase. -/

theorem hostFrame_setTurns (s : State) (l : List Turn) : HostFrame s { s with turns := l } :=
  ⟨rfl, rfl, rfl, rfl, rfl, id, id⟩

theorem FreshEngine.of_hostFrame (h : FreshEngine p s) (hf : HostFrame s t) : FreshEngine p t :=
  ⟨hf.params.trans h.params, hf.midi.trans h.midi, hf.status h.status, hf.mirq h.mirq⟩

theorem InEmptyBlock.of_hostFrame {stage : Stage} (h : InEmptyBlock s stage) (hf : HostFrame s t) : InEmptyBlock t stage := by
  obtain ⟨tx, htx, hrest⟩ := h
  exact ⟨tx, hf.tx.trans htx, hrest⟩

theorem Installing.of_hostFrame (h : Installing p cfg later s) (hf : HostFrame s t) (hq : t.cmdq = s.cmdq) :
    Installing p cfg later t := by
  cases h with
  | waiting rate hengine htx hb hcmdq hch =>
    exact .waiting rate (hengine.of_hostFrame hf) (hf.tx.trans htx) (hf.blocks.trans hb) (hq.trans hcmdq) (hf.ch.trans hch)
  | draining done rest hengine hcfg htx hb hcmdq hch =>
    exact .draining done rest (hengine.of_hostFrame hf) hcfg (htx.of_hostFrame hf) (hf.blocks.trans hb) (hq.trans hcmdq)
      (hf.ch.trans hch)
  | applying done rest e hengine hcfg htx hb hcmdq hch =>
    exact .applying done rest e (hengine.of_hostFrame hf) hcfg (htx.of_hostFrame hf) (hf.blocks.trans hb) (hq.trans hcmdq)
      (hf.ch.trans hch)

theorem AfterDrain.of_hostFrame (h : AfterDrain p cfg later s) (hf : HostFrame s t) : AfterDrain p cfg later t := by
  obtain ⟨stage, htx, hstage⟩ := h.tx
  exact ⟨h.engine.of_hostFrame hf, ⟨stage, htx.of_hostFrame hf, hstage⟩, hf.blocks.trans h.blocks, hf.ch.trans h.ch⟩

theorem PastInstalling.of_hostFrame (h : PastInstalling later s) (hf : HostFrame s t) : PastInstalling later t := by
  unfold PastInstalling
  rw [hf.blocks, hf.tx]
  exact h

/-! What a step of the ASP makes of a phase. -/

theorem beginBlock_emptyCall (s : State) (rate : BitVec 32) :
    beginBlock (emptyCall rate) s = .next { s with
      outBuf := []
      result := none
      tx := some { events := [], len := 0, rate := rate, chout := [], stage := .drain } } := by
  have hlong : tooLong s.params 0 = false := by
    unfold tooLong
    split <;> simp
  simp [beginBlock, emptyCall, hlong]

theorem Installing.of_aspStep (h : Installing p cfg later s) (hcfg : cfg.InRange p) (hstep : aspStep s = .next t) :
    Installing p cfg later t ∨ AfterDrain p cfg later t := by
  cases h with
  | waiting rate hengine htx hb hcmdq hch =>
    rw [aspStep_call htx hb, beginBlock_emptyCall] at hstep
    obtain rfl := Host.Outcome.next.inj hstep
    exact .inl (.draining [] cfg { hengine with } rfl ⟨_, rfl, rfl, rfl, rfl⟩ rfl hcmdq hch)
  | draining done rest hengine hsplit htx hb hcmdq hch =>
    obtain ⟨tx, htx, hst, hev, hlen⟩ := htx
    cases rest with
    | nil =>
      rw [aspStep_drained htx hst hcmdq] at hstep
      obtain rfl := Host.Outcome.next.inj hstep
      obtain rfl : cfg = done := hsplit.trans (List.append_nil done)
      exact .inr ⟨{ hengine with }, ⟨_, ⟨_, rfl, rfl, hev, hlen⟩, .inl rfl⟩, hb, hch⟩
    | cons e rest =>
      rw [aspStep_pop htx hst hcmdq] at hstep
      obtain rfl := Host.Outcome.next.inj hstep
      exact .inl (.applying done rest e { hengine with } hsplit ⟨_, rfl, rfl, hev, hlen⟩ hb rfl hch)
  | applying done rest e hengine hsplit htx hb hcmdq hch =>
    obtain ⟨tx, htx, hst, hev, hlen⟩ := htx
    obtain ⟨hmsg, hrange⟩ := hcfg e (by rw [hsplit]; simp)
    have hp := hengine.params
    rw [← hp] at hmsg hrange
    rw [aspStep_setch htx hst hmsg hrange] at hstep
    obtain rfl := Host.Outcome.next.inj hstep
    refine .inl (.draining (done ++ [e]) rest { hengine with } (by rw [hsplit]; simp) ⟨_, rfl, rfl, hev, hlen⟩ hb hcmdq ?_)
    rw [installAll_append, ← hch, ← hp]

theorem AfterDrain.of_aspStep (h : AfterDrain p cfg later s) (hstep : aspStep s = .next t) :
    AfterDrain p cfg later t ∨ Returned p cfg later t := by
  obtain ⟨hengine, ⟨stage, ⟨tx, htx, hst, hev, hlen⟩, hstage⟩, hb, hch⟩ := h
  subst hst
  cases hst : tx.stage with
  | drain => simp [hst, Stage.beforeRender] at hstage
  | apply msg => simp [hst, Stage.beforeRender] at hstage
  | midi =>
    rw [aspStep_beginRender htx hst hev] at hstep
    obtain rfl := Host.Outcome.next.inj hstep
    exact .inl ⟨{ hengine with }, ⟨_, ⟨_, rfl, rfl, hev, hlen⟩, .inr rfl⟩, hb, hch⟩
  | render pos =>
    cases renderMove_of_aspStep htx hst hstep with
    | node u hS hpos => exact absurd (hlen ▸ hpos) (Nat.not_lt_zero _)
    | copy hS hpos => exact absurd (hlen ▸ hpos) (Nat.not_lt_zero _)
    | _ => exact .inl ⟨{ hengine with }, ⟨_, ⟨_, rfl, rfl, hev, hlen⟩, .inr rfl⟩, hb, hch⟩
  | output j =>
    rw [aspStep_finish htx hst (hlen ▸ Nat.zero_le j)] at hstep
    obtain rfl := Host.Outcome.next.inj hstep
    exact .inr ⟨{ hengine with }, rfl, rfl, hb, hch⟩

theorem Returned.past (h : Returned p cfg later s) : PastInstalling later s :=
  ⟨le_of_eq (congrArg _ h.blocks), fun htx => absurd h.tx htx⟩

theorem PastInstalling.of_aspStep (h : PastInstalling later s) (hstep : aspStep s = .next t) : PastInstalling later t := by
  obtain ⟨hle, hlt⟩ := h
  rcases (aspMove_of_aspStep hstep).host.2 with ⟨hb, htx⟩ | ⟨blk, hb⟩
  · unfold PastInstalling
    rw [hb]
    exact ⟨hle, fun ht => hlt (mt htx ht)⟩
  · rw [hb, List.length_cons] at hle
    exact ⟨Nat.le_of_succ_le hle, fun _ => hle⟩

/-! What a step of the machine makes of a phase. -/

theorem AfterDrain.of_step (h : AfterDrain p cfg later s) (hreset : s.turns.headD .asp ≠ .powerOn) (hstep : step s = .next t) :
    AfterDrain p cfg later t ∨ Returned p cfg later t := by
  rcases aspStep_or_hostFrame_of_step hreset hstep with hasp | ⟨hf, -⟩
  · exact (h.of_hostFrame (hostFrame_setTurns s _)).of_aspStep hasp
  · exact .inl (h.of_hostFrame hf)

theorem PastInstalling.of_step (h : PastInstalling later s) (hreset : s.turns.headD .asp ≠ .powerOn) (hstep : step s = .next t) :
    PastInstalling later t := by
  rcases aspStep_or_hostFrame_of_step hreset hstep with hasp | ⟨hf, -⟩
  · exact (h.of_hostFrame (hostFrame_setTurns s _)).of_aspStep hasp
  · exact h.of_hostFrame hf

theorem Installing.of_step (h : Installing p cfg later s) (hcfg : cfg.InRange p)
    (hturn : (s.turns.headD .asp).isPush = false ∧ s.turns.headD .asp ≠ .powerOn) (hstep : step s = .next t) :
    Installing p cfg later t ∨ AfterDrain p cfg later t := by
  rcases aspStep_or_hostFrame_of_step hturn.2 hstep with hasp | ⟨hf, hcmdq⟩
  · exact (h.of_hostFrame (hostFrame_setTurns s s.turns.tail) rfl).of_aspStep hcfg hasp
  · exact .inl (h.of_hostFrame hf (hcmdq hturn.1))

theorem afterDrain_or_past_of_step (h : AfterDrain p cfg later s ∨ PastInstalling later s)
    (hreset : s.turns.headD .asp ≠ .powerOn) (hstep : step s = .next t) : AfterDrain p cfg later t ∨ PastInstalling later t := by
  rcases h with h | h
  · exact (h.of_step hreset hstep).imp id Returned.past
  · exact .inr (h.of_step hreset hstep)

theorem Installing.stage_ne_midi (h : Installing p cfg later s) {tx : Tx} (htx : s.tx = some tx) : tx.stage ≠ .midi := by
  cases h with
  | waiting rate hengine hnone => cases hnone.symm.trans htx
  | draining done rest hengine hsplit hblock | applying done rest e hengine hsplit hblock =>
    obtain ⟨tx', htx', hst, -⟩ := hblock
    obtain rfl := Option.some.inj (htx'.symm.trans htx)
    rw [hst]
    exact nofun

/-- A transaction whose call is the installing one is not past it. -/
theorem not_pastInstalling (htx : s.tx ≠ none) (hb : s.blocks = later) : ¬ PastInstalling later s :=
  fun h => absurd (h.2 htx) (by rw [hb]; exact Nat.lt_irrefl _)

/-- The launch premise is the first phase (R249). -/
theorem installing_of_launched (h : s.launched p cfg) : ∃ later, s.blocks.tail = later ∧ Installing p cfg later s := by
  obtain ⟨hp, hreset, hcmdq, rate, later, hb⟩ := h
  simp only [State.isReset, decide_eq_true_eq] at hreset
  refine ⟨later, by rw [hb, List.tail_cons], .waiting rate ⟨hp, ?_, ?_, ?_⟩ ?_ hb hcmdq ?_⟩
  · exact (congrArg State.midi hreset).symm.trans (by rw [← hp]; rfl)
  · exact (congrArg State.status hreset).symm
  · exact (congrArg State.mirq hreset).symm
  · exact (congrArg State.tx hreset).symm
  · exact (congrArg State.ch hreset).symm.trans (by rw [← hp]; rfl)

/-- After the drain of the launched transaction (R249), whose call is the only one taken. -/
theorem afterDrain_of_run {k : Nat} (hlaunched : s.launched p cfg) (hcfg : cfg.InRange p) (hrun : core.run k s = .next t)
    (hturns : ∀ x ∈ s.turns.take k, x.isPush = false ∧ x ≠ .powerOn) {tx : Tx} (htx : t.tx = some tx) (hst : tx.stage = .midi)
    (hb : t.blocks = s.blocks.tail) : AfterDrain p cfg t.blocks t := by
  obtain ⟨later, hlater, hinst⟩ := installing_of_launched hlaunched
  have hphase : Installing p cfg later t ∨ AfterDrain p cfg later t ∨ PastInstalling later t := by
    refine run_keeps (I := fun s => Installing p cfg later s ∨ AfterDrain p cfg later s ∨ PastInstalling later s)
      ⟨rfl, nofun⟩ ?_ (.inl hinst) hturns hrun
    rintro u v (hu | hu) hturn hstep
    · exact (hu.of_step hcfg hturn hstep).imp id .inl
    · exact .inr (afterDrain_or_past_of_step hu hturn.2 hstep)
  rw [hb, hlater]
  rcases hphase with hinst | hafter | hpast
  · exact absurd hst (hinst.stage_ne_midi htx)
  · exact hafter
  · exact absurd hpast (not_pastInstalling (by rw [htx]; exact nofun) (hb.trans hlater))

/-- What every installed state holds (R249). -/
theorem returned_of_installed (h : Installed p cfg t) : ∃ later, Returned p cfg later t := by
  obtain ⟨-, ⟨-, hcfg⟩, s, s₁, s₂, tx, j, k, hlaunched, hrun₁, htx₁, hst₁, hb₁, hturns₁, hrun₂, htx₂, hb₂, hturns₂, hstep, htx⟩ := h
  have hafter₁ := afterDrain_of_run hlaunched hcfg hrun₁ hturns₁ htx₁ hst₁ hb₁
  have hphase₂ : AfterDrain p cfg s₁.blocks s₂ ∨ PastInstalling s₁.blocks s₂ :=
    run_keeps (admitted := (· ≠ .powerOn)) nofun (fun _ _ => afterDrain_or_past_of_step) (.inl hafter₁)
      (fun x hx => hturns₂ x (List.take_subset_take_left _ (Nat.le_succ k) hx)) hrun₂
  have hafter₂ := hphase₂.resolve_right (not_pastInstalling htx₂ hb₂)
  have hreset : s₂.turns.headD .asp ≠ .powerOn := admitted_headD_of_run (admitted := (· ≠ .powerOn)) nofun hrun₂ hturns₂
  refine ⟨_, (hafter₂.of_step hreset hstep).resolve_left fun hafter => ?_⟩
  obtain ⟨stage, ⟨tx, hsome, -⟩, -⟩ := hafter.tx
  cases htx.symm.trans hsome

end

/-! The run when no turn is listed. -/

/-- The state of R245 with the messages in CMDQ and the call to come. -/
def launchState (p : Params) (cfg : SetupList) : State :=
  { State.resetWith p with cmdq := setupMessages cfg, blocks := [emptyCall 48000#32] }

theorem launchState_launched (p : Params) (cfg : SetupList) : (launchState p cfg).launched p cfg :=
  ⟨rfl, by simp only [State.isReset, decide_eq_true_eq]; rfl, rfl, _, _, rfl⟩

/-- The launched state comes to the end of its drain, every message applied. -/
theorem launchState_drains {p : Params} {cfg : SetupList} (hwf : p.wf = true) (hcfg : cfg.InRange p) :
    ∃ s₁ : State, core.run (2 * cfg.length + 1 + 1) (launchState p cfg) = .next s₁ ∧ AfterDrain p cfg [] s₁ ∧
      InEmptyBlock s₁ .midi ∧ s₁.turns = [] ∧ s₁.cmdq = [] := by
  have hcall : aspStep (launchState p cfg) = _ := (aspStep_call rfl rfl).trans (beginBlock_emptyCall _ _)
  have hdrain := (run_aspStep (s := launchState p cfg) hwf rfl hcall _).trans (run_drain_setup hwf rfl rfl rfl rfl hcfg)
  refine ⟨_, hdrain, ⟨⟨rfl, rfl, rfl, rfl⟩, ⟨.midi, ?_, .inl rfl⟩, rfl, rfl⟩, ?_, rfl, rfl⟩
  all_goals exact ⟨_, rfl, rfl, rfl, rfl⟩

/-- A block of no samples that has no events left renders nothing, and comes to the output phase. -/
theorem run_to_output {s : State} (hwf : s.params.wf = true) (hturns : s.turns = []) (hblock : InEmptyBlock s .midi)
    (hch : s.ch.length = s.params.nch) :
    ∃ s₂ : State, core.run (s.params.nch + 1 + 1) s = .next s₂ ∧ InEmptyBlock s₂ (.output 0) ∧ s₂.params = s.params ∧
      s₂.blocks = s.blocks ∧ s₂.turns = [] ∧ s₂.cmdq = s.cmdq := by
  obtain ⟨tx, htx, hst, hev, hlen⟩ := hblock
  have hrun := (run_aspStep hwf hturns (aspStep_beginRender htx hst hev) _).trans
    (run_render_empty (s := beginRender tx s) (c := 0) hwf hturns rfl rfl hlen hch (Nat.zero_add _))
  exact ⟨_, hrun, ⟨_, rfl, rfl, hev, hlen⟩, rfl, rfl, hturns, rfl⟩

/-- An installed state with an empty CMDQ (R249). -/
theorem exists_installed {p : Params} {cfg : SetupList} (hwf : p.wf = true) (hok : cfg.ok p) :
    ∃ t, Installed p cfg t ∧ t.cmdq = [] := by
  obtain ⟨s₁, hrun₁, hafter, hblock₁, hturns₁, hcmdq₁⟩ := launchState_drains hwf hok.2
  have hp := hafter.engine.params
  have hwf₁ : s₁.params.wf = true := hp ▸ hwf
  have hch : s₁.ch.length = s₁.params.nch := by rw [hafter.ch, hp, installAll_length, List.length_replicate]
  obtain ⟨s₂, hrun₂, ⟨tx₂, htx₂, hst₂, -, hlen₂⟩, hp₂, hb₂, hturns₂, hcmdq₂⟩ := run_to_output hwf₁ hturns₁ hblock₁ hch
  have hstep := (step_of_no_turns (hp₂ ▸ hwf₁) hturns₂).trans (aspStep_finish htx₂ hst₂ hlen₂.le)
  obtain ⟨tx₁, htx₁, hst₁, -⟩ := hblock₁
  refine ⟨_, ⟨hwf, hok, launchState p cfg, s₁, s₂, tx₁, _, _, launchState_launched p cfg, hrun₁, htx₁, hst₁, hafter.blocks,
    fun x hx => ?_, hrun₂, by rw [htx₂]; exact nofun, hb₂, fun x hx => ?_, hstep, rfl⟩, hcmdq₂.trans hcmdq₁⟩
  · cases List.mem_of_mem_take hx
  · rw [hturns₁] at hx
    cases List.mem_of_mem_take hx

/-- Settles O56: an installed state is one the phases of the transaction end in (`returned_of_installed`), and the run without turns reaches one. -/
theorem installedStates : Obligations.InstalledStates := by
  refine fun p cfg hwf hok => ⟨exists_installed hwf hok, fun t ht => ?_⟩
  obtain ⟨later, hengine, htx, hresult, -, hch⟩ := returned_of_installed ht
  refine ⟨hengine.status, hengine.mirq, hengine.midi, hengine.params, htx, hresult, by simp [hch], fun c hc => ?_⟩
  rw [hch]
  exact installAll_getElem? (List.getElem?_replicate_of_lt hc) cfg

end Sys2Proof.Machine
end

section
/-! SUPPORT. Ports and the multiplexer (R64 to R67): the uniform index, and whole registers moved to and from a port's own file. -/

namespace Sys2Proof.Machine

/-- Settles O21, by the kind of the port. -/
theorem uniformIndexReadAfterWrite : Obligations.UniformIndexReadAfterWrite :=
  fun P i v _ => ⟨put_spec P i v, fun haudio _ hj => put_get_audio haudio hj i v, fun hcontrol j => put_get_control hcontrol i j v⟩

/-- Settles O22, port form by port form; an index in range names a register that exists, since the file has its form (R30). -/
theorem portReadAndWriteMoveWholeRegisters : Obligations.PortReadAndWriteMoveWholeRegisters := by
  intro p data hwf
  obtain ⟨hna, hnc⟩ := (wf_iff p data).1 hwf
  refine ⟨fun k v hk => ⟨rfl, readAudio_writeAudio v (hna ▸ hk), fun r hr => List.getElem?_set_ne hr.symm, rfl⟩,
    fun k x hk => ⟨rfl, readControl_writeControl x (hnc ▸ hk), fun r hr => List.getElem?_set_ne hr.symm, rfl⟩,
    fun _ _ => ⟨rfl, rfl⟩, fun _ => ⟨rfl, rfl⟩⟩

end Sys2Proof.Machine
end

section
/-! SUPPORT. The program store (R80): the descriptors of every channel, kept by every event, node call and move of the ASP but the application of a command. -/

namespace Sys2Proof.Machine

/-- A change of register files keeps every channel's nodes. -/
theorem nodes_mapActive_data (f : Stack → StackData) (s : State) :
    (mapActive (fun S => { S with data := f S }) s).nodes = s.nodes := by
  funext c
  simp [State.nodes, Function.comp_def]

theorem nodes_modifyChannel_data (f : Stack → StackData) (c : Nat) (s : State) :
    (modifyChannel c (fun S => { S with data := f S }) s).nodes = s.nodes := by
  funext k
  rw [State.nodes, stack_modifyChannel]
  split
  · simp [State.nodes, Function.comp_def]
  · rfl

@[simp] theorem nodes_postEventWrite (s : State) : (postEventWrite s).nodes = s.nodes := nodes_mapActive_data _ s

@[simp] theorem nodes_retrigger (c : Nat) (s : State) : (retrigger c s).nodes = s.nodes := by
  unfold retrigger
  split
  · exact nodes_modifyChannel_data _ c s
  · exact nodes_mapActive_data _ s

theorem nodes_eq_of_ch_eq {s t : State} (h : t.ch = s.ch) : t.nodes = s.nodes := by
  funext c
  rw [State.nodes, State.nodes, State.stack, State.stack, h]

/-- An event writes registers, and no node (R165, R176, R178). -/
theorem exec_midi_nodes {i : Instr} {s t : State} (hi : i.family = .midi) (h : exec i s = .next t) : t.nodes = s.nodes := by
  cases i with
  | noteon c n v =>
    obtain rfl := Host.Outcome.next.inj h
    split
    · exact nodes_postEventWrite _
    · rw [midiNoteOn, nodes_postEventWrite, nodes_retrigger, nodes_eq_of_ch_eq (mirrorPush_ch _ _)]
      rfl
  | noteoff c n v => obtain rfl := Host.Outcome.next.inj h; exact nodes_postEventWrite _
  | reset c n v => obtain rfl := Host.Outcome.next.inj h; exact nodes_postEventWrite _
  | other w =>
    obtain rfl := Host.Outcome.next.inj h
    unfold midiOther
    split
    · exact nodes_postEventWrite s
    · rfl
  | _ => cases hi

/-- A node call keeps the descriptors of every channel (R80). -/
theorem descs_commitNode {s : State} {tx : Tx} {pos : RenderPos} {S : Stack} {nd nd' : Node} {d : StackData} {u : Nat}
    (hS : s.stack pos.c = some S) (hk : S.nodes[pos.k]? = some nd) (hdesc : nd'.desc = nd.desc) (c : Nat) :
    ((commitNode s tx pos S nd' d u).nodes c).map (List.map Node.desc) = (s.nodes c).map (List.map Node.desc) := by
  by_cases hc : c = pos.c
  · subst hc
    simp [State.nodes, lt_of_stack hS, hS, map_desc_set hk hdesc]
  · simp [State.nodes, hc]

/-- Settles O60, by the moves of the ASP: outside a command only events and node calls write a channel. -/
theorem onlyCommandsChangeTheProgramStore : Obligations.OnlyCommandsChangeTheProgramStore := by
  intro s t hnoCommand hstep c
  cases aspMove_of_aspStep hstep with
  | malformed htx hst => exact absurd hst (hnoCommand _ _ htx)
  | command htx hst => exact absurd hst (hnoCommand _ _ htx)
  | event htx hst hev hexec => rw [exec_midi_nodes (decodeEvent_family _) hexec]; rfl
  | render htx hst hmove =>
    cases hmove with
    | node u hS hb hk hdesc hd => exact descs_commitNode hS hk hdesc c
    | _ => rfl
  | _ => rfl

end Sys2Proof.Machine
end

section
/-! SUPPORT. The Adsr kernel (R133 to R136): its segments case by case, and the run of the samples of a chunk. -/

namespace Sys2Proof.Machine

/-- A kernel that writes its output port once a sample leaves the chunk's results in it (R117). -/
theorem sampleLoop_chunkOutput {σ : Type} {body : Nat → σ → σ} (out : σ → Port) {result : Nat → σ → F32}
    (hbody : ∀ i x, out (body i x) = (out x).put i (result i x)) (st : σ) (n : Nat) :
    ChunkOutput n (fun i => result i (sampleLoop body i st)) (out st) (out (sampleLoop body n st)) := by
  induction n with
  | zero => exact chunkOutput_zero _ _
  | succ n ih =>
    rw [sampleLoop, hbody]
    exact chunkOutput_step ih _ rfl

theorem nodeCallDone_commitNode {s : State} {tx : Tx} {pos : RenderPos} {S : Stack} {nd : Node}
    (h : s.nodeAt = some ⟨tx, pos, S, nd⟩) (nd' : Node) (d : StackData) (u : Nat) :
    NodeCallDone (commitNode s tx pos S nd' d u) tx pos S nd' d := by
  obtain ⟨-, -, hS, -⟩ := nodeAt_eq_some.1 h
  exact ⟨stack_commitNode_self tx pos S nd' d u (lt_of_stack hS), rfl⟩

theorem adsrRetrigger_eq (gate prev : F32) (i : Nat) (time : Port) :
    adsrRetrigger gate prev i time = if fne gate f0 = true ∧ feq prev f0 = true then time.put i f0 else time := by
  simp only [adsrRetrigger, Bool.and_eq_true]

theorem adsrLow_eq (d : Nat) (sr sustain release voltage : F32) :
    adsrLow d sr sustain release voltage =
      let v := fsub (d + 2) voltage (fdiv (d + 1) sustain (fmul d release sr))
      if flt v f0 = true ∨ isNaN v = true then f0 else v := by
  simp only [adsrLow, Bool.or_eq_true]

/-! The segments of a high gate. -/

/-- The voltage of the sustain segment, as `ADSR_SUSTAIN` says (R133). -/
def sustainVoltage (p : Params) (sustain voltage : F32) : F32 :=
  match p.adsrSustain with
  | .explicit => sustain
  | .hold => voltage

section
variable {p : Params} {d : Nat} {time attack decay : F32} (sustain voltage : F32)

theorem adsrHigh_attack (hattack : flt time attack = true) (hdecay : isNaN decay = false ∨ p.nanDecay = .attack) :
    adsrHigh p d time attack decay sustain voltage = fdiv d time attack := by
  rcases hdecay with h | h <;> simp [adsrHigh, hattack, h]

/-- Once the attack is over, or where a NaN decay skips it, the comparison with the end of the decay decides (R134, R137). -/
theorem adsrHigh_pastAttack (h : flt time attack = false ∨ isNaN decay = true ∧ p.nanDecay = .sustain) :
    adsrHigh p d time attack decay sustain voltage =
      if flt time (fadd (d + 1) attack decay) = true then
        fadd (d + 7)
          (fdiv (d + 6) (fmul (d + 5) (fsub (d + 3) (fadd (d + 2) decay attack) time) (fsub (d + 4) f1 sustain)) decay)
          sustain
      else sustainVoltage p sustain voltage := by
  have hskip : ¬ (flt time attack && !(isNaN decay && decide (p.nanDecay = .sustain))) = true := by
    rcases h with h | ⟨hnan, hreading⟩
    · simp [h]
    · simp [hnan, hreading]
  rw [adsrHigh, if_neg hskip]
  rfl

/-- No time is below the end of a NaN decay. -/
theorem adsrHigh_nanDecay (hnan : isNaN decay = true) (hreading : p.nanDecay = .sustain) :
    adsrHigh p d time attack decay sustain voltage = sustainVoltage p sustain voltage := by
  rw [adsrHigh_pastAttack _ _ (.inr ⟨hnan, hreading⟩), flt_nan_right (isNaN_fadd_right hnan _ _)]
  rfl

end

section
variable {p : Params} {sr : F32} {d i : Nat} {gate attack decay sustain release : Port} {st : AdsrState}

theorem adsrSample_voltage_high (h : fne (gate.get i) f0 = true) :
    (adsrSample p sr d gate attack decay sustain release i st).voltage =
      adsrHigh p d ((adsrRetrigger (gate.get i) st.previousGate i st.time).get i) (attack.get i) (decay.get i) (sustain.get i)
        st.voltage :=
  if_pos h

theorem adsrSample_voltage_low (h : fne (gate.get i) f0 = false) :
    (adsrSample p sr d gate attack decay sustain release i st).voltage =
      adsrLow (d + 8) sr (sustain.get i) (release.get i) st.voltage :=
  if_neg (by simp [h])

end

/-- The voltage after each sample of a chunk is what the output port holds of it (R119, R134). -/
theorem adsrKernel_chunkOutput (p : Params) (sr : F32) (n d : Nat) (g a dc su r : Port) (st : AdsrState) :
    ChunkOutput n (fun i => (adsrKernel p sr (i + 1) d g a dc su r st).voltage) st.output
      (adsrKernel p sr n d g a dc su r st).output :=
  sampleLoop_chunkOutput AdsrState.output
    (result := fun i x => (adsrSample p sr (d + 13 * i) g a dc su r i x).voltage) (fun _ _ => rfl) st n

/-- What the Adsr at a render position has written before sample `i` of its call, from what it had written when called: the kernel stopped there. -/
def adsrBefore (s : State) (tx : Tx) (data : StackData) (g a dc su r : Port) (st : AdsrState) (i : Nat) : AdsrState :=
  adsrKernel s.params (u32ToF32 tx.rate) i s.draws (g.read data) (a.read data) (dc.read data) (su.read data) (r.read data) st

/-- Settles O28: the sequences are the kernel's state before each sample, and each sample's voltage is that of its segment. -/
theorem adsrCompletesWithEnvelope : Obligations.AdsrCompletesWithEnvelope := by
  intro s tx pos S pg pa pd ps pr pt po volt0 prev0 hat
  let before := adsrBefore s tx S.data pg pa pd ps pr ⟨pt.read S.data, po, volt0, prev0⟩
  refine ⟨_, (before pos.n).output, fun i => (before i).time,
    fun i => adsrRetrigger ((pg.read S.data).get i) (before i).previousGate i (before i).time,
    fun i => (before i).voltage, fun i => (before i).previousGate, fun i j => s.draws + 13 * i + j,
    execAdsr_at hat, nodeCallDone_commitNode hat _ _ _, rfl, rfl, rfl, fun i _ => ?_,
    adsrKernel_chunkOutput ..⟩
  refine ⟨adsrRetrigger_eq _ _ _ _, fun hhigh hattack hdecay => ?_, fun hhigh _ hnan hreading => ?_,
    fun hhigh hattack hdecay => ?_, fun hhigh hattack hdecay => ?_, fun hlow => ?_, rfl, rfl⟩
  · exact (adsrSample_voltage_high hhigh).trans (adsrHigh_attack _ _ hattack hdecay)
  · exact (adsrSample_voltage_high hhigh).trans (adsrHigh_nanDecay _ _ hnan hreading)
  · exact (adsrSample_voltage_high hhigh).trans ((adsrHigh_pastAttack _ _ (.inl hattack)).trans (if_pos hdecay))
  · exact (adsrSample_voltage_high hhigh).trans ((adsrHigh_pastAttack _ _ (.inl hattack)).trans (if_neg (by simp [hdecay])))
  · exact (adsrSample_voltage_low hlow).trans (adsrLow_eq _ _ _ _ _)

end Sys2Proof.Machine
end

section
/-! SUPPORT. The output copies of a channel with no nodes (R150, R157): copies of adjacent chunks join into one, of the master bus repeated. -/

namespace Sys2Proof.Machine

/-- A copy and a copy right after it are one copy. -/
theorem copyInto_copyInto (b : Nat) (xs ys zs : List F32) :
    copyInto (b + xs.length) ys (copyInto b xs zs) = copyInto b (xs ++ ys) zs := by
  refine List.ext_getElem? fun j => ?_
  by_cases hj : j < zs.length
  · rw [copyInto_getElem? _ _ (by simpa using hj), copyInto_getElem? _ _ hj, copyInto_getElem? _ _ hj, List.length_append]
    by_cases hlater : b + xs.length ≤ j
    · rw [if_neg (c := b ≤ j ∧ j < b + xs.length) (by omega), List.getElem?_append_right (by omega), Nat.sub_add_eq]
      exact if_congr (by omega) rfl rfl
    · rw [if_neg fun h => hlater h.1]
      by_cases hin : b ≤ j
      · rw [if_pos (by omega), if_pos (by omega), List.getElem?_append_left (by omega)]
      · rw [if_neg fun h => hin h.1, if_neg fun h => hin h.1]
  · rw [List.getElem?_eq_none (by simpa using hj), List.getElem?_eq_none (by simpa using hj)]

theorem choutCopy_choutCopy (c b : Nat) (xs ys : List F32) (bufs : List (Nat × List F32)) :
    choutCopy c (b + xs.length) ys (choutCopy c b xs bufs) = choutCopy c b (xs ++ ys) bufs := by
  simp only [choutCopy, List.map_map]
  refine List.map_congr_left fun e _ => ?_
  by_cases hc : e.1 = c <;> simp [hc, copyInto_copyInto]

theorem choutCopy_nil (c b : Nat) (bufs : List (Nat × List F32)) : choutCopy c b [] bufs = bufs := by
  have hcopy (ys : List F32) : copyInto b [] ys = ys := List.ext_getElem? fun j => by simp [copyInto]
  simp [choutCopy, hcopy]

/-- `n` samples of the master bus, repeated from its start every `N` samples (R157). -/
def repeatedBus (n : Nat) (d : StackData) : List F32 :=
  (List.range n).map fun j => (d.readAudio 0)[j % 256]'(Nat.mod_lt _ (by decide))

@[simp] theorem repeatedBus_length (n : Nat) (d : StackData) : (repeatedBus n d).length = n := by simp [repeatedBus]

theorem repeatedBus_getElem? {n j : Nat} (hj : j < n) (d : StackData) : (repeatedBus n d)[j]? = (d.readAudio 0)[j % 256]? := by
  simp [repeatedBus, hj, Nat.mod_lt]

/-- The first chunk is a whole bus, or all there is. -/
theorem repeatedBus_eq_append (n : Nat) (d : StackData) :
    repeatedBus n d = masterBus (min 256 n) d ++ repeatedBus (n - 256) d := by
  have hlen : (masterBus (min 256 n) d).length = min 256 n := masterBus_length (Nat.min_le_left _ _) d
  refine List.ext_getElem? fun j => ?_
  by_cases hj : j < n
  · rw [repeatedBus_getElem? hj]
    by_cases hfirst : j < 256
    · rw [List.getElem?_append_left (by omega), masterBus_getElem? (by omega), Nat.mod_eq_of_lt hfirst]
    · have hmin : min 256 n = 256 := by omega
      rw [List.getElem?_append_right (by omega), hlen, hmin, repeatedBus_getElem? (by omega), ← Nat.mod_eq_sub_mod (by omega)]
  · rw [List.getElem?_eq_none (by simpa using hj), List.getElem?_eq_none]
    simp [hlen]
    omega

/-- The transaction at the start of the chunk at offset `b` of channel `c` (R45, R146), with its render buffers. -/
def Tx.atChunk (tx : Tx) (c b : Nat) (bufs : List (Nat × List F32)) : Tx :=
  { tx with chout := bufs, stage := .render { c := c, b := b, n := min 256 (tx.len - b), k := 0 } }

section
variable {s : State} {tx : Tx} {c : Nat} {S : Stack}

/-- With no nodes a step copies one chunk out (R150). -/
theorem run_copyChunk (hwf : s.params.wf = true) (hturns : s.turns = []) (hS : s.stack c = some S) (hnodes : S.nodes = [])
    {b : Nat} (hb : b < tx.len) (bufs : List (Nat × List F32)) (k : Nat) :
    core.run (k + 1) { s with tx := some (tx.atChunk c b bufs) } = core.run k { s with
      tx := some (tx.atChunk c (b + min 256 (tx.len - b)) (choutCopy c b (masterBus (min 256 (tx.len - b)) S.data) bufs)) } :=
  run_aspStep (s := { s with tx := some (tx.atChunk c b bufs) }) hwf hturns
    (aspStep_copy rfl rfl hS hb (by rw [hnodes]; rfl)) k

/-- The rest of a channel with no nodes from the chunk at offset `b` on, by induction over its chunks: every copy is of the same master bus. -/
theorem run_copyChunks (hwf : s.params.wf = true) (hturns : s.turns = []) (hS : s.stack c = some S) (hnodes : S.nodes = [])
    {m b : Nat} (hm : chunkCount (tx.len - b) = m) (hb : b ≤ tx.len) (bufs : List (Nat × List F32)) :
    core.run m { s with tx := some (tx.atChunk c b bufs) } = .next { s with
      tx := some (tx.atChunk c tx.len (choutCopy c b (repeatedBus (tx.len - b) S.data) bufs)) } := by
  induction m generalizing b bufs with
  | zero =>
    obtain rfl : b = tx.len := by unfold chunkCount at hm; omega
    have hnone : repeatedBus (tx.len - tx.len) S.data = [] := by simp [repeatedBus]
    rw [hnone, choutCopy_nil]
    rfl
  | succ m ih =>
    have hlt : b < tx.len := by unfold chunkCount at hm; omega
    have hrest : tx.len - (b + min 256 (tx.len - b)) = tx.len - b - 256 := by omega
    rw [run_copyChunk hwf hturns hS hnodes hlt, ih (by unfold chunkCount at *; omega) (by omega), hrest,
      repeatedBus_eq_append (tx.len - b), ← choutCopy_choutCopy, masterBus_length (Nat.min_le_left _ _)]

end

/-- Fresh registers are silent (R190). -/
theorem readAudio_zeroStackData (p : Params) (k : Nat) : (zeroStackData p).readAudio k = zeroSamples := by
  simp only [StackData.readAudio, zeroStackData, List.getElem?_replicate]
  split <;> rfl

/-- Settles O17: the run is one copy of the repeated master bus (`run_copyChunks`). -/
theorem emptyProgramCopiesTheMasterBus : Obligations.EmptyProgramCopiesTheMasterBus := by
  intro s tx c S hwf hturns htx hst hS hnodes
  have hstart : s = { s with tx := some (tx.atChunk c 0 tx.chout) } := by
    have hat : tx.atChunk c 0 tx.chout = tx := by rw [Tx.atChunk, Nat.sub_zero, ← hst]
    rw [hat, ← htx]
  have hrun := run_copyChunks (tx := tx) hwf hturns hS hnodes rfl (Nat.zero_le tx.len) tx.chout
  rw [← hstart, Tx.atChunk, Nat.sub_self] at hrun
  refine ⟨_, hrun, by simp [choutCopy], fun q e he => ?_⟩
  rw [choutCopy_getElem? _ _ _ he]
  refine ⟨fun hne => by rw [if_neg hne], fun hc hlen => ?_⟩
  have hsample : ∀ j < tx.len, (copyInto 0 (repeatedBus tx.len S.data) e.2)[j]? = (S.data.readAudio 0)[j % 256]? := by
    intro j hj
    rw [copyInto_getElem? _ _ (hlen ▸ hj), if_pos (by simpa using hj), Nat.sub_zero, repeatedBus_getElem? hj]
  refine ⟨_, by rw [if_pos hc, hc]; rfl, (copyInto_length ..).trans hlen, hsample, fun hzero j hj => ?_⟩
  rw [hsample j hj, hzero, readAudio_zeroStackData]
  simp [zeroSamples, Nat.mod_lt]

end Sys2Proof.Machine
end

section
/-! SUPPORT. The round trips of the three inputs (R86 to R109): the words of a well-formed instruction are read back, and what a decoder accepts encodes to the words it was read from. -/

namespace Sys2Proof

/-! Words from their fields. -/

section
variable {w : Word} {lo width j : Nat}

/-- The bit of a field at a place of the word. -/
theorem field_getLsbD_sub (hlo : lo ≤ j) (hj : j < lo + width) : (field w lo width).getLsbD (j - lo) = w.getLsbD j := by
  rw [field_getLsbD, decide_eq_true (by omega), Bool.true_and, Nat.add_sub_cancel' hlo]

theorem getLsbD_of_field_eq_zero (h : field w lo width = 0#width) (hlo : lo ≤ j) (hj : j < lo + width) :
    w.getLsbD j = false := by
  rw [← field_getLsbD_sub hlo hj, h, BitVec.getLsbD_zero]

end

theorem field_one_eq_zero {w : Word} {lo : Nat} : field w lo 1 = 0#1 ↔ w.getLsbD lo = false := by
  refine ⟨fun h => getLsbD_of_field_eq_zero h le_rfl (Nat.lt_succ_self lo), fun h => field_eq_of_getLsbD fun i hi => ?_⟩
  obtain rfl : i = 0 := by omega
  rw [Nat.add_zero, h, BitVec.getLsbD_zero]

section
variable {w : Word}

/-- An event word with clean reserved bits is its four fields (R97). -/
theorem eventWord_fields (h15 : field w 15 1 = 0#1) (h31 : field w 23 9 = 0#9) :
    eventWord (field w 0 4) (field w 4 4) (field w 8 7) (field w 16 7) = w := by
  refine BitVec.eq_of_getLsbD_eq fun j hj => ?_
  rw [eventWord_getLsbD]
  split_ifs
  · exact field_getLsbD_sub (Nat.zero_le j) (by omega)
  · exact field_getLsbD_sub (by omega) (by omega)
  · exact field_getLsbD_sub (by omega) (by omega)
  · exact (getLsbD_of_field_eq_zero h15 (by omega) (by omega)).symm
  · exact field_getLsbD_sub (by omega) (by omega)
  · exact (getLsbD_of_field_eq_zero h31 (by omega) (by omega)).symm

/-- A command header with clean reserved bits is its three fields (R102). -/
theorem commandHeader_fields (h7 : field w 4 4 = 0#4) (h31 : field w 24 8 = 0#8) :
    commandHeader (field w 0 4) (field w 8 8) (field w 16 8) = w := by
  refine BitVec.eq_of_getLsbD_eq fun j hj => ?_
  rw [commandHeader_getLsbD]
  split_ifs
  · exact field_getLsbD_sub (Nat.zero_le j) (by omega)
  · exact (getLsbD_of_field_eq_zero h7 (by omega) (by omega)).symm
  · exact field_getLsbD_sub (by omega) (by omega)
  · exact field_getLsbD_sub (by omega) (by omega)
  · exact (getLsbD_of_field_eq_zero h31 (by omega) (by omega)).symm

/-- A descriptor's header with clean reserved bits is its KIND (R88). -/
theorem nodeHeader_fields (h31 : field w 4 28 = 0#28) : 0#28 ++ field w 0 4 = w := by
  refine BitVec.eq_of_getLsbD_eq fun j hj => ?_
  rw [BitVec.getLsbD_append]
  split_ifs
  · exact field_getLsbD_sub (Nat.zero_le j) (by omega)
  · rw [BitVec.getLsbD_zero, getLsbD_of_field_eq_zero h31 (by omega) (by omega)]

/-- A PORTW with clean reserved bits is its REG and its two flags (R92). -/
theorem portWord_fields (h7 : field w 2 6 = 0#6) (h31 : field w 16 16 = 0#16) {b : BitVec 8} (hb : b.toNat < 2 ^ 2)
    (h0 : w.getLsbD 0 = b.getLsbD 0) (h1 : w.getLsbD 1 = b.getLsbD 1) : 0#16 ++ field w 8 8 ++ b = w := by
  refine BitVec.eq_of_getLsbD_eq fun j hj => ?_
  rcases Nat.lt_or_ge j 8 with hlow | hhigh
  · rw [boundPort_flags _ _ _ hlow]
    rcases Nat.lt_or_ge j 2 with hflag | hres
    · interval_cases j
      · exact h0.symm
      · exact h1.symm
    · rw [getLsbD_of_field_eq_zero h7 hres hlow]
      exact Nat.testBit_lt_two_pow (hb.trans_le (Nat.pow_le_pow_right two_pos hres))
  · rw [boundPort_getLsbD, if_neg (by omega)]
    split_ifs
    · exact field_getLsbD_sub hhigh (by omega)
    · exact (getLsbD_of_field_eq_zero h31 (by omega) (by omega)).symm

end

/-! Node descriptors (R87 to R96). -/

theorem encodePort_of_parsePort {p : Params} {ws ws' : List Word} {q : PortSpec} (h : parsePort p ws = .ok (q, ws')) :
    encodePort q ++ ws' = ws := by
  unfold parsePort at h
  split at h
  · cases h
  next w rest =>
  split at h
  · cases h
  next hclean =>
  simp only [ne_eq, not_or, not_not] at hclean
  obtain ⟨h7, h31⟩ := hclean
  split at h
  next h1 h0 => -- Audio, bound
    split at h <;> cases h
    exact congrArg (· :: ws') (portWord_fields h7 h31 (by decide) h0 h1)
  next h1 h0 => -- Control, bound
    split at h <;> cases h
    exact congrArg (· :: ws') (portWord_fields h7 h31 (by decide) h0 h1)
  next h1 h0 => -- Audio, unbound
    split at h <;> cases h
    next hreg =>
    have hw := portWord_fields (b := 0x00#8) h7 h31 (by decide) h0 h1
    rw [← hw, hreg]
    rfl
  next h1 h0 => -- Control, unbound
    split at h
    · cases h
    next hreg =>
    have hw := portWord_fields (b := 0x01#8) h7 h31 (by decide) h0 h1
    split at h <;> cases h
    rw [← hw, not_not.1 hreg]
    rfl

theorem encodePorts_of_parsePorts {p : Params} {n : Nat} {ws ws' : List Word} {qs : List PortSpec}
    (h : parsePorts p n ws = .ok (qs, ws')) : qs.flatMap encodePort ++ ws' = ws := by
  induction n generalizing ws qs with
  | zero =>
    cases h
    rfl
  | succ n ih =>
    rw [parsePorts] at h
    split at h
    · cases h
    next q rest hq =>
    split at h <;> cases h
    next qs' hqs =>
    rw [List.flatMap_cons, List.append_assoc, ih hqs, encodePort_of_parsePort hq]

theorem buildNode_eq_some {n : Nat} {qs : List PortSpec} {d : NodeDesc} (h : buildNode n qs = some d) :
    d.kind.toNat = n ∧ d.ports = qs := by
  unfold buildNode at h
  split at h <;> cases h <;> exact ⟨rfl, rfl⟩

theorem encodeNode_of_parseNode {p : Params} {ws ws' : List Word} {d : NodeDesc} (h : parseNode p ws = .ok (d, ws')) :
    encodeNode d ++ ws' = ws := by
  cases ws with
  | nil => cases h
  | cons w rest =>
    rw [parseNode] at h
    split at h
    · cases h
    next hclean =>
    split at h
    · cases h
    split at h
    · cases h
    next ps rest' hps =>
    split at h <;> cases h
    next hd =>
    obtain ⟨hkind, hports⟩ := buildNode_eq_some hd
    rw [encodeNode, List.cons_append, hports, encodePorts_of_parsePorts hps, BitVec.eq_of_toNat_eq hkind,
      nodeHeader_fields (not_not.1 hclean)]

theorem encodeNodes_of_parseNodes {p : Params} {n : Nat} {ws ws' : List Word} {ds : List NodeDesc}
    (h : parseNodes p n ws = .ok (ds, ws')) : ds.flatMap encodeNode ++ ws' = ws := by
  induction n generalizing ws ds with
  | zero =>
    cases h
    rfl
  | succ n ih =>
    rw [parseNodes] at h
    split at h
    · cases h
    next d rest hd =>
    split at h <;> cases h
    next ds' hds =>
    rw [List.flatMap_cons, List.append_assoc, ih hds, encodeNode_of_parseNode hd]

@[simp] theorem NodeDesc.toInstr_wf (p : Params) (d : NodeDesc) : d.toInstr.wf p = d.wf p := by cases d <;> rfl

@[simp] theorem NodeDesc.toInstr_family (d : NodeDesc) : d.toInstr.family = .node := by cases d <;> rfl

@[simp] theorem encode_toInstr (d : NodeDesc) : encode d.toInstr = encodeNode d := by cases d <;> rfl

theorem decodeNode_encodeNode {p : Params} {d : NodeDesc} (h : d.wf p = true) :
    decodeNode p (encodeNode d) = .ok d.toInstr := by
  have hparse := parseNode_encodeNode h []
  rw [List.append_nil] at hparse
  rw [decodeNode, hparse]

/-- What the node input accepts is one descriptor and nothing after it. -/
theorem decodeNode_eq_ok {p : Params} {ws : List Word} {i : Instr} (h : decodeNode p ws = .ok i) :
    ∃ d : NodeDesc, d.toInstr = i ∧ d.wf p = true ∧ encodeNode d = ws := by
  unfold decodeNode at h
  split at h <;> cases h
  next d hd => exact ⟨d, rfl, parseNode_wf hd, by simpa using encodeNode_of_parseNode hd⟩

/-! Event words (R97 to R99). -/

/-- The words that are not classed Other (R98, R99). -/
theorem otherWord_eq_false {w : Word} :
    otherWord w = false ↔ (field w 0 4).toNat < 3 ∧ field w 15 1 = 0#1 ∧ field w 23 9 = 0#9 := by
  rw [field_one_eq_zero]
  simp [otherWord, field, and_assoc]

theorem decodeEvent_of_otherWord {w : Word} (h : otherWord w = true) : decodeEvent w = .other w := by
  unfold decodeEvent
  split
  · rfl
  next hclean =>
  simp only [ne_eq, not_or, not_not] at hclean
  obtain ⟨h15, h31⟩ := hclean
  have htype : ¬ (field w 0 4).toNat < 3 := fun hlt => by simp [otherWord_eq_false.2 ⟨hlt, h15, h31⟩] at h
  split
  case h_4 => rfl
  all_goals omega

section
variable (c : BitVec 4) (n v : BitVec 7)

theorem decodeEvent_noteon : decodeEvent (eventWord 0#4 c n v) = .noteon c n v := by
  simp [decodeEvent, eventWord_reserved15, eventWord_reserved31, eventWord_type, eventWord_chan, eventWord_note, eventWord_vel]

theorem decodeEvent_noteoff : decodeEvent (eventWord 1#4 c n v) = .noteoff c n v := by
  simp [decodeEvent, eventWord_reserved15, eventWord_reserved31, eventWord_type, eventWord_chan, eventWord_note, eventWord_vel]

theorem decodeEvent_reset : decodeEvent (eventWord 2#4 c n v) = .reset c n v := by
  simp [decodeEvent, eventWord_reserved15, eventWord_reserved31, eventWord_type, eventWord_chan, eventWord_note, eventWord_vel]

end

/-- Every event word is well-formed, an event, and its instruction's one word (R99, R109). -/
theorem decodeEvent_roundTrip (p : Params) (w : Word) :
    (decodeEvent w).wf p = true ∧ (decodeEvent w).family = .midi ∧ encode (decodeEvent w) = [w] := by
  cases hother : otherWord w with
  | true =>
    rw [decodeEvent_of_otherWord hother]
    exact ⟨hother, rfl, rfl⟩
  | false =>
    obtain ⟨htype, h15, h31⟩ := otherWord_eq_false.1 hother
    rw [← eventWord_fields h15 h31]
    obtain h | h | h : field w 0 4 = 0#4 ∨ field w 0 4 = 1#4 ∨ field w 0 4 = 2#4 := by bv_omega
    · rw [h, decodeEvent_noteon]
      exact ⟨rfl, rfl, rfl⟩
    · rw [h, decodeEvent_noteoff]
      exact ⟨rfl, rfl, rfl⟩
    · rw [h, decodeEvent_reset]
      exact ⟨rfl, rfl, rfl⟩

/-! Command messages (R102 to R105): one equation an OP. -/

section
variable (p : Params) (c n : BitVec 8) (payload : List Word)

theorem decodeCommand_op0 : decodeCommand p (commandHeader 0#4 c n :: payload) = (decodePayload p n payload).map (.setch c) := by
  simp only [decodeCommand, commandHeader_reserved7, commandHeader_reserved31, commandHeader_op, commandHeader_chan, commandHeader_nnodes]
  cases decodePayload p n payload <;> rfl

theorem decodeCommand_op1 : decodeCommand p (commandHeader 1#4 c n :: payload) = (decodePayload p n payload).map (.replace c) := by
  simp only [decodeCommand, commandHeader_reserved7, commandHeader_reserved31, commandHeader_op, commandHeader_chan, commandHeader_nnodes]
  cases decodePayload p n payload <;> rfl

theorem decodeCommand_op2 : decodeCommand p (commandHeader 2#4 c n :: payload) =
    if n ≠ 0#8 then .error .fieldZero else if payload ≠ [] then .error .payloadExact else .ok (.rmch c) := by
  simp [decodeCommand, commandHeader_reserved7, commandHeader_reserved31, commandHeader_op, commandHeader_chan, commandHeader_nnodes]

theorem decodeCommand_op3 : decodeCommand p (commandHeader 3#4 c n :: payload) =
    if c ≠ 0#8 ∨ n ≠ 0#8 then .error .fieldZero else if payload ≠ [] then .error .payloadExact else .ok .resetdata := by
  simp [decodeCommand, commandHeader_reserved7, commandHeader_reserved31, commandHeader_op, commandHeader_chan, commandHeader_nnodes]

theorem decodeCommand_op4 : decodeCommand p (commandHeader 4#4 c n :: payload) = .ok (.addnode c n payload) := by
  simp [decodeCommand, commandHeader_reserved7, commandHeader_reserved31, commandHeader_op, commandHeader_chan, commandHeader_nnodes]

end

/-- An accepted message has clean reserved bits and a known OP. -/
theorem decodeCommand_header {p : Params} {msg : List Word} {i : Instr} (h : decodeCommand p msg = .ok i) :
    ∃ (op : BitVec 4) (c n : BitVec 8) (payload : List Word), msg = commandHeader op c n :: payload ∧ op.toNat < 5 := by
  unfold decodeCommand at h
  split at h
  · cases h
  next w payload =>
  split at h
  · cases h
  next hclean =>
  simp only [ne_eq, not_or, not_not] at hclean
  refine ⟨_, _, _, payload, congrArg (· :: payload) (commandHeader_fields hclean.1 hclean.2).symm, ?_⟩
  split at h
  case h_6 => cases h
  all_goals omega

/-- What setch and replace carry when they are accepted: as many descriptors as NNODES says, and nothing else (R105). -/
theorem decodePayload_map_eq_ok {p : Params} {n : BitVec 8} {payload : List Word} {f : List NodeDesc → Instr} {i : Instr}
    (h : (decodePayload p n payload).map f = .ok i) :
    ∃ ds : List NodeDesc, f ds = i ∧ BitVec.ofNat 8 ds.length = n ∧ ds.flatMap encodeNode = payload := by
  unfold decodePayload at h
  split at h
  · cases h
  split at h <;> cases h
  next ds hds =>
  refine ⟨ds, rfl, ?_, by simpa using encodeNodes_of_parseNodes hds⟩
  rw [(parseNodes_wf hds).1, BitVec.ofNat_toNat, BitVec.setWidth_eq]

/-- An accepted message is a command with exactly its words, by its OP (R103). -/
theorem encode_of_decodeCommand {p : Params} {msg : List Word} {i : Instr} (h : decodeCommand p msg = .ok i) :
    i.family = .command ∧ encode i = msg := by
  obtain ⟨op, c, n, payload, rfl, hop⟩ := decodeCommand_header h
  obtain rfl | rfl | rfl | rfl | rfl : op = 0#4 ∨ op = 1#4 ∨ op = 2#4 ∨ op = 3#4 ∨ op = 4#4 := by bv_omega
  · rw [decodeCommand_op0] at h
    obtain ⟨ds, rfl, rfl, rfl⟩ := decodePayload_map_eq_ok h
    exact ⟨rfl, rfl⟩
  · rw [decodeCommand_op1] at h
    obtain ⟨ds, rfl, rfl, rfl⟩ := decodePayload_map_eq_ok h
    exact ⟨rfl, rfl⟩
  · rw [decodeCommand_op2] at h
    split_ifs at h with hn hpayload
    cases h
    rw [not_not.1 hn, not_not.1 hpayload]
    exact ⟨rfl, rfl⟩
  · rw [decodeCommand_op3] at h
    split_ifs at h with hzero hpayload
    cases h
    simp only [ne_eq, not_or, not_not] at hzero
    rw [hzero.1, hzero.2, not_not.1 hpayload]
    exact ⟨rfl, rfl⟩
  · rw [decodeCommand_op4] at h
    cases h
    exact ⟨rfl, rfl⟩

/-! The two round trips. -/

/-- Settles O2, input by input. -/
theorem decodeOfEncodeIsTheInstruction : Obligations.DecodeOfEncodeIsTheInstruction := by
  intro p i h
  cases i with
  | abs a o => exact decodeNode_encodeNode (d := .abs a o) h
  | add a b o => exact decodeNode_encodeNode (d := .add a b o) h
  | adsr g a d s r t o => exact decodeNode_encodeNode (d := .adsr g a d s r t o) h
  | mul a b o => exact decodeNode_encodeNode (d := .mul a b o) h
  | osc f w q o => exact decodeNode_encodeNode (d := .osc f w q o) h
  | noteon c n v => exact congrArg Except.ok (decodeEvent_noteon c n v)
  | noteoff c n v => exact congrArg Except.ok (decodeEvent_noteoff c n v)
  | reset c n v => exact congrArg Except.ok (decodeEvent_reset c n v)
  | other w => exact congrArg Except.ok (decodeEvent_of_otherWord h)
  | setch c ds => exact decodeCommand_setch h
  | replace c ds => exact (decodeCommand_op1 ..).trans (by rw [decodePayload_encodeNodes h]; rfl)
  | rmch c => exact decodeCommand_op2 ..
  | resetdata => exact decodeCommand_op3 p 0#8 0#8 []
  | addnode c n payload => exact decodeCommand_op4 ..

/-- Settles O3, input by input. -/
theorem encodeOfDecodeIsTheWords : Obligations.EncodeOfDecodeIsTheWords := by
  intro p fam ws i h
  cases fam with
  | node =>
    obtain ⟨d, rfl, hwf, hwords⟩ := decodeNode_eq_ok h
    exact ⟨by simpa using hwf, by simp, by simpa using hwords⟩
  | midi =>
    match ws, h with
    | [w], rfl => exact decodeEvent_roundTrip p w
  | command => exact ⟨decodeCommand_wf h, encode_of_decodeCommand h⟩

/-- Settles O4: the word is Other, or is its own fields. -/
theorem eventWordClasses : Obligations.EventWordClasses := by
  refine fun w => ⟨fun h => decodeEvent_of_otherWord ?_, fun hbit h31 => ?_⟩
  · simpa [otherWord, or_assoc, or_comm, or_left_comm] using h
  · have hw := eventWord_fields (field_one_eq_zero.2 hbit) h31
    refine ⟨fun htype => ?_, fun htype => ?_, fun htype => ?_⟩
    · rw [← decodeEvent_noteon, ← htype]
      exact congrArg decodeEvent hw.symm
    · rw [← decodeEvent_noteoff, ← htype]
      exact congrArg decodeEvent hw.symm
    · rw [← decodeEvent_reset, ← htype]
      exact congrArg decodeEvent hw.symm

/-- Settles O5: a message is accepted exactly when it is encoded (O2, O3), and an accepted first word is the encoder's, whose code is read off the row. -/
theorem messageIsMalformedExactlyWhenNoCommandHasItsWords :
    Obligations.MessageIsMalformedExactlyWhenNoCommandHasItsWords := by
  refine ⟨fun p msg => ⟨?_, fun hnone => ?_⟩, fun p fam h rest i hi => ?_, fun p h rest rest' d hd => ?_⟩
  · rintro ⟨e, he⟩ ⟨i, hwf, hfam, rfl⟩
    have hok := decodeOfEncodeIsTheInstruction p i hwf
    rw [hfam] at hok
    cases he.symm.trans hok
  · cases hmsg : decodeCommand p msg with
    | error e => exact ⟨e, rfl⟩
    | ok i => exact absurd ⟨i, encodeOfDecodeIsTheWords p .command msg i hmsg⟩ hnone
  · obtain ⟨-, -, hwords⟩ := encodeOfDecodeIsTheWords p fam _ i hi
    cases i with
    | abs | add | adsr | mul | osc =>
      rw [← (List.cons.inj hwords).1]
      exact nodeHeader_kind _
    | noteon | noteoff | reset =>
      rw [← (List.cons.inj hwords).1]
      exact eventWord_type ..
    | other => rw [← (List.cons.inj hwords).1]
    | setch | replace | rmch | resetdata | addnode =>
      rw [← (List.cons.inj hwords).1]
      exact commandHeader_op ..
  · rw [← (List.cons.inj (encodeNode_of_parseNode hd)).1]
    cases d <;> exact nodeHeader_kind _

/-- Settles O1: the encoder writes the worked words, and so they are read back (O2). -/
theorem workedEncodingExampleDecodes : Obligations.WorkedEncodingExampleDecodes :=
  ⟨decodeOfEncodeIsTheInstruction Params.default
      (.osc (.control 0#8) (.const 0x00000000#32) (.const 0x3F000000#32) (.audio 0#8)) rfl,
    decodeOfEncodeIsTheInstruction Params.default
      (.setch 3#8 [.osc (.control 0#8) (.const 0x00000000#32) (.const 0x3F000000#32) (.audio 0#8)]) rfl,
    decodeOfEncodeIsTheInstruction Params.default (.noteon 0#4 69#7 100#7) rfl, rfl, rfl, rfl⟩

end Sys2Proof
end

section
/-! SUPPORT. A descriptor away from its render position (R86). -/

namespace Sys2Proof.Machine

theorem exec_of_nodeFor_eq_none {s : State} {d : NodeDesc} (h : s.nodeFor d = none) :
    exec d.toInstr s = .refused .notAtNode := by
  cases d with
  | abs i o => simp only [NodeDesc.toInstr, exec, execAbs, h]
  | add a b o => simp only [NodeDesc.toInstr, exec, execAdd, h]
  | adsr g a d s r t o => simp only [NodeDesc.toInstr, exec, execAdsr, h]
  | mul a b o => simp only [NodeDesc.toInstr, exec, execMul, h]
  | osc f w q o => simp only [NodeDesc.toInstr, exec, execOsc, h]

/-- Settles O30: the meanings ask for the node at the render position first. -/
theorem nodeAwayFromItsRenderPositionIsRefused : Obligations.NodeAwayFromItsRenderPositionIsRefused := by
  intro s d h
  refine exec_of_nodeFor_eq_none (Option.eq_none_iff_forall_ne_some.2 fun x hx => ?_)
  obtain ⟨hat, hdesc⟩ := nodeFor_eq_some.1 hx
  exact h x hat hdesc

end Sys2Proof.Machine
end

section
/-! SUPPORT. The bound on the work of a transaction (R218): every step of the ASP in a transaction completes, and each of its moves uses some of the bound up. -/

namespace Sys2Proof.Machine

theorem runCommand_next (msg : List Word) (s : State) : ∃ t, runCommand msg s = .next t := by
  unfold runCommand
  cases hdec : decodeCommand s.params msg with
  | error e => exact ⟨_, rfl⟩
  | ok i => exact exec_command_next i s (decodeCommand_family hdec)

theorem aspStep_render_next {s : State} {tx : Tx} {pos : RenderPos} (htx : s.tx = some tx) (hst : tx.stage = .render pos) :
    ∃ t, aspStep s = .next t := by
  cases hS : s.stack pos.c with
  | none =>
    rcases Nat.lt_or_ge pos.c s.params.nch with hc | hc
    · exact ⟨_, aspStep_channelEmpty htx hst hS hc⟩
    · exact ⟨_, aspStep_rendered htx hst hS hc⟩
  | some S =>
    rcases Nat.lt_or_ge pos.b tx.len with hb | hb
    · cases hk : S.nodes[pos.k]? with
      | none => exact ⟨_, aspStep_copy htx hst hS hb hk⟩
      | some nd =>
        obtain ⟨_, _, _, hexec, -⟩ := exec_nodeAt (nodeAt_eq_some.2 ⟨htx, hst, hS, hk⟩)
        exact ⟨_, (aspStep_node htx hst hS hb hk).trans hexec⟩
    · exact ⟨_, aspStep_channelDone htx hst hS hb⟩

/-- Nothing stops a transaction in progress (R221): an over-long block is refused before it begins. -/
theorem aspStep_next_of_tx {s : State} {tx : Tx} (htx : s.tx = some tx) : ∃ t, aspStep s = .next t := by
  cases hst : tx.stage with
  | drain =>
    cases hq : s.cmdq with
    | nil => exact ⟨_, aspStep_drained htx hst hq⟩
    | cons msg rest => exact ⟨_, aspStep_pop htx hst hq⟩
  | apply msg => rw [aspStep_apply htx hst]; exact runCommand_next msg _
  | midi =>
    cases hev : tx.events with
    | nil => exact ⟨_, aspStep_beginRender htx hst hev⟩
    | cons ev rest => rw [aspStep_event htx hst hev]; exact exec_midi_next _ _ (decodeEvent_family ev)
  | render pos => exact aspStep_render_next htx hst
  | output j =>
    rcases Nat.lt_or_ge j tx.len with hj | hj
    · exact ⟨_, aspStep_sample htx hst hj⟩
    · exact ⟨_, aspStep_finish htx hst hj⟩

/-! The bound of each stage. -/

/-- The steps of its channel that a render position has behind it: the chunks copied out, each with its nodes, and the nodes of this chunk. -/
def renderDone (p : Params) (len : Nat) (pos : RenderPos) : Nat :=
  (chunkCount len - chunkCount (len - pos.b)) * (p.nodeCap + 1) + pos.k

/-- The part of the bound for the channels still to render, this one among them. -/
def channelsLeft (p : Params) (len : Nat) (pos : RenderPos) : Nat :=
  (p.nch - pos.c) * channelWork p len - renderDone p len pos

theorem work_eq {s : State} {tx : Tx} (htx : s.tx = some tx) : s.work = txWork s tx := by
  simp only [State.work, htx]

section
variable {s : State} {tx : Tx} (htx : s.tx = some tx)
include htx

theorem work_drain (hst : tx.stage = .drain) :
    s.work = 2 * s.cmdq.length + 1 + (tx.events.length + 1 + renderWork s.params tx.len) := by
  simp only [work_eq htx, txWork, hst]

theorem work_apply {msg : List Word} (hst : tx.stage = .apply msg) :
    s.work = 2 * s.cmdq.length + 2 + (tx.events.length + 1 + renderWork s.params tx.len) := by
  simp only [work_eq htx, txWork, hst]

theorem work_midi (hst : tx.stage = .midi) : s.work = tx.events.length + 1 + renderWork s.params tx.len := by
  simp only [work_eq htx, txWork, hst]

theorem work_render {pos : RenderPos} (hst : tx.stage = .render pos) :
    s.work = channelsLeft s.params tx.len pos + (tx.len + 2) := by
  simp only [work_eq htx, txWork, hst, channelsLeft, renderDone]

theorem work_output {j : Nat} (hst : tx.stage = .output j) : s.work = tx.len - j + 1 := by
  simp only [work_eq htx, txWork, hst]

end

/-! The render phase. -/

theorem renderDone_channelStart (p : Params) (c len : Nat) : renderDone p len (channelStart c len) = 0 := by
  simp [renderDone, channelStart]

theorem channelsLeft_channelStart (p : Params) (c len : Nat) :
    channelsLeft p len (channelStart c len) = (p.nch - c) * channelWork p len := by
  rw [channelsLeft, renderDone_channelStart]
  rfl

/-- While a chunk is still to render, not every chunk is done. -/
theorem chunkCount_sub_lt {len b : Nat} (hb : b < len) : chunkCount len - chunkCount (len - b) < chunkCount len := by
  unfold chunkCount
  omega

/-- The output copy leaves one chunk fewer (R145, R146). -/
theorem chunkCount_copy {len b : Nat} (hb : b < len) :
    chunkCount len - chunkCount (len - (b + min 256 (len - b))) = chunkCount len - chunkCount (len - b) + 1 := by
  unfold chunkCount
  omega

/-- A channel is not rendered for longer than its share of the bound. -/
theorem renderDone_lt_channelWork {p : Params} {len : Nat} {pos : RenderPos} (hk : pos.k ≤ p.nodeCap)
    (hpos : pos.b < len ∨ pos.k = 0) : renderDone p len pos < channelWork p len := by
  unfold renderDone channelWork
  rcases hpos with hb | hzero
  · have hchunk : (chunkCount len - chunkCount (len - pos.b) + 1) * (p.nodeCap + 1) ≤ chunkCount len * (p.nodeCap + 1) :=
      Nat.mul_le_mul_right _ (chunkCount_sub_lt hb)
    rw [Nat.succ_mul] at hchunk
    omega
  · have hchunk : (chunkCount len - chunkCount (len - pos.b)) * (p.nodeCap + 1) ≤ chunkCount len * (p.nodeCap + 1) :=
      Nat.mul_le_mul_right _ (Nat.sub_le _ _)
    omega

/-- The share of this channel comes off that of the channels left. -/
theorem sub_mul_channelWork {p : Params} {c : Nat} (hc : c < p.nch) (len : Nat) :
    (p.nch - c) * channelWork p len = (p.nch - (c + 1)) * channelWork p len + channelWork p len := by
  rw [← Nat.succ_mul]
  congr 1
  omega

/-- Going on within a channel uses the bound up. -/
theorem channelsLeft_lt_of_renderDone_lt {p : Params} {len : Nat} {pos pos' : RenderPos} (hc : pos.c < p.nch) (hc' : pos'.c = pos.c)
    (hdone : renderDone p len pos < channelWork p len) (hlt : renderDone p len pos < renderDone p len pos') :
    channelsLeft p len pos' < channelsLeft p len pos := by
  have := sub_mul_channelWork hc len
  unfold channelsLeft
  rw [hc']
  omega

theorem channelsLeft_node_lt {p : Params} {len : Nat} {pos : RenderPos} (hc : pos.c < p.nch)
    (hdone : renderDone p len pos < channelWork p len) :
    channelsLeft p len { pos with k := pos.k + 1 } < channelsLeft p len pos :=
  channelsLeft_lt_of_renderDone_lt hc rfl hdone (Nat.lt_succ_self (renderDone p len pos))

/-- The output copy of a chunk counts for more than the chunk's nodes. -/
theorem channelsLeft_copy_lt {p : Params} {len : Nat} {pos : RenderPos} (hc : pos.c < p.nch)
    (hdone : renderDone p len pos < channelWork p len) (hb : pos.b < len) (hk : pos.k ≤ p.nodeCap) (n : Nat) :
    channelsLeft p len ⟨pos.c, pos.b + min 256 (len - pos.b), n, 0⟩ < channelsLeft p len pos := by
  refine channelsLeft_lt_of_renderDone_lt hc rfl hdone ?_
  simp only [renderDone, chunkCount_copy hb, Nat.succ_mul]
  omega

/-- Going on to the next channel uses the bound up. -/
theorem channelsLeft_next_channel_lt {p : Params} {len : Nat} {pos : RenderPos} (hc : pos.c < p.nch)
    (hdone : renderDone p len pos < channelWork p len) :
    channelsLeft p len (channelStart (pos.c + 1) len) < channelsLeft p len pos := by
  have := sub_mul_channelWork hc len
  rw [channelsLeft_channelStart, channelsLeft]
  omega

theorem PosWf.renderDone_lt {s : State} {tx : Tx} {pos : RenderPos} (hs : StoreInv s) (hpos : PosWf s tx pos) :
    renderDone s.params tx.len pos < channelWork s.params tx.len := by
  cases hS : s.stack pos.c with
  | none =>
    obtain ⟨-, hk⟩ := hpos.empty hS
    exact renderDone_lt_channelWork (hk ▸ Nat.zero_le _) (.inr hk)
  | some S =>
    obtain ⟨hk, hb⟩ := hpos.active S hS
    obtain ⟨hcap, -⟩ := stackWf_iff.1 (hs.slots.stack (stack_eq_some.1 hS))
    exact renderDone_lt_channelWork (hk.trans hcap) hb

theorem RenderMove.work_lt {s t : State} {tx : Tx} {pos : RenderPos} (h : RenderMove s tx pos t) (hs : StoreInv s)
    (htx : s.tx = some tx) (hst : tx.stage = .render pos) (hpos : PosWf s tx pos) : t.work < s.work := by
  have hdone := hpos.renderDone_lt hs
  have hlt {S : Stack} (hS : s.stack pos.c = some S) : pos.c < s.params.nch := hs.slots.1 ▸ lt_of_stack hS
  rw [work_render htx hst]
  cases h with
  | node u hS hb hk hdesc hwf =>
    rw [work_render rfl rfl]
    exact Nat.add_lt_add_right (channelsLeft_node_lt (hlt hS) hdone) _
  | @copy S hS hb hk =>
    have hcap := (stackWf_iff.1 (hs.slots.stack (stack_eq_some.1 hS))).1
    have hk' : pos.k ≤ s.params.nodeCap := (hpos.active S hS).1.trans hcap
    rw [work_render (pos := ⟨pos.c, pos.b + pos.n, min 256 (tx.len - (pos.b + pos.n)), 0⟩) rfl rfl, hpos.chunk]
    exact Nat.add_lt_add_right (channelsLeft_copy_lt (hlt hS) hdone hb hk' _) _
  | channelDone hS hb =>
    rw [work_render rfl rfl]
    exact Nat.add_lt_add_right (channelsLeft_next_channel_lt (hlt hS) hdone) _
  | channelEmpty hS hc =>
    rw [work_render rfl rfl]
    exact Nat.add_lt_add_right (channelsLeft_next_channel_lt hc hdone) _
  | rendered hS hc =>
    rw [work_output rfl rfl]
    simp only
    omega

/-- Each move of the ASP in a transaction uses some of the bound up. -/
theorem AspMove.work_lt {s t : State} (h : AspMove s t) (hinv : s.inv = true) (hbusy : s.tx ≠ none) : t.work < s.work := by
  cases h with
  | idle htx | stop htx | start htx => exact absurd htx hbusy
  | pop htx hst hq =>
    rw [work_drain htx hst, work_apply rfl rfl, hq, List.length_cons]
    simp only
    omega
  | drained htx hst hq =>
    rw [work_drain htx hst, work_midi rfl rfl]
    simp only
    omega
  | malformed htx hst =>
    rw [work_apply htx hst, work_drain rfl rfl]
    simp only [raiseStatus_cmdq, raiseStatus_params]
    omega
  | command htx hst hdec hexec =>
    rw [work_apply htx hst, (exec_command_frame (decodeCommand_family hdec) hexec).1, work_drain rfl rfl]
    simp only
    omega
  | @event tx ev rest t htx hst hev hexec =>
    rw [work_midi htx hst, exec_midi_frame (decodeEvent_family _) hexec, work_midi (tx := { tx with events := rest }) rfl hst, hev,
      List.length_cons]
    simp only
    omega
  | beginRender htx hst hev =>
    rw [work_midi htx hst, work_render rfl rfl, channelsLeft_channelStart]
    unfold renderWork
    simp only [beginRender_params, Nat.sub_zero]
    omega
  | render htx hst hmove =>
    obtain ⟨hs, htxWf⟩ := inv_iff.1 hinv
    obtain ⟨-, hpos, -⟩ := (txWf_render hst).1 (htxWf _ htx)
    exact hmove.work_lt hs htx hst hpos
  | sample v d htx hst hj =>
    rw [work_output htx hst, work_output rfl rfl]
    simp only
    omega
  | finish htx hst hj =>
    rw [work_output htx hst]
    exact Nat.succ_pos _

/-- Settles O54: a step of the transaction answers a next state (`aspStep_next_of_tx`), and it is a move that uses some of the bound up. -/
theorem transactionWorkIsBounded : Obligations.TransactionWorkIsBounded := by
  intro s tx hinv htx
  obtain ⟨t, ht⟩ := aspStep_next_of_tx htx
  exact ⟨t, ht, (aspMove_of_aspStep ht).work_lt hinv (by simp [htx])⟩

end Sys2Proof.Machine
end

section
/-! SUPPORT. The kernels without a scalar, and Osc (R120 to R130): the outputs of a chunk sample by sample, at the node's render position. -/

namespace Sys2Proof.Machine

theorem absKernel_chunkOutput (n : Nat) (input output : Port) :
    ChunkOutput n (fun i => fabs (input.get i)) output (absKernel n input output) :=
  sampleLoop_chunkOutput id (result := fun i _ => fabs (input.get i)) (fun _ _ => rfl) output n

theorem addKernel_chunkOutput (n d : Nat) (input1 input2 output : Port) :
    ChunkOutput n (fun i => fadd (d + i) (input1.get i) (input2.get i)) output (addKernel n d input1 input2 output) :=
  sampleLoop_chunkOutput id (result := fun i _ => fadd (d + i) (input1.get i) (input2.get i)) (fun _ _ => rfl) output n

theorem mulKernel_chunkOutput (n d : Nat) (input1 input2 output : Port) :
    ChunkOutput n (fun i => fmul (d + i) (input1.get i) (input2.get i)) output (mulKernel n d input1 input2 output) :=
  sampleLoop_chunkOutput id (result := fun i _ => fmul (d + i) (input1.get i) (input2.get i)) (fun _ _ => rfl) output n

/-- Settles O24: the call commits the kernel's output. -/
theorem absCompletesWithMagnitudes : Obligations.AbsCompletesWithMagnitudes :=
  fun _ _ _ _ _ _ hat => ⟨_, _, execAbs_at hat, nodeCallDone_commitNode hat _ _ _, absKernel_chunkOutput ..⟩

/-- Settles O25: the call commits the kernel's output, sample `i` with the draw `s.draws + i`. -/
theorem addCompletesWithSums : Obligations.AddCompletesWithSums :=
  fun s _ _ _ _ _ _ hat =>
    ⟨_, _, fun i => s.draws + i, execAdd_at hat, nodeCallDone_commitNode hat _ _ _, addKernel_chunkOutput ..⟩

/-- Settles O26: the call commits the kernel's output, sample `i` with the draw `s.draws + i`. -/
theorem mulCompletesWithProducts : Obligations.MulCompletesWithProducts :=
  fun s _ _ _ _ _ _ hat =>
    ⟨_, _, fun i => s.draws + i, execMul_at hat, nodeCallDone_commitNode hat _ _ _, mulKernel_chunkOutput ..⟩

/-! Osc. -/

section
variable {d : Nat} {phase waveform : F32} (pulseWidth : F32)

theorem oscOutput_saw (h : oscShape d waveform = .saw) :
    oscOutput d phase waveform pulseWidth = fsub (d + 2) (fmul (d + 1) phase f2) f1 := by
  unfold oscOutput
  rw [h]

theorem oscOutput_pulse (h : oscShape d waveform = .pulse) :
    oscOutput d phase waveform pulseWidth = if fgt phase pulseWidth then f1 else fm1 := by
  unfold oscOutput
  rw [h]

theorem oscOutput_silence (h : oscShape d waveform = .silence) : oscOutput d phase waveform pulseWidth = f0 := by
  unfold oscOutput
  rw [h]

end

/-- What the oscillator at a render position has written before sample `i` of its call: the kernel stopped there. -/
def oscBefore (s : State) (tx : Tx) (data : StackData) (f w q : Port) (st : OscState) (i : Nat) : OscState :=
  oscKernel s.params (u32ToF32 tx.rate) i s.draws (f.read data) (w.read data) (q.read data) st

/-- The wrapped phase of sample `i`. -/
def oscWrapped (s : State) (before : Nat → OscState) (i : Nat) : F32 := oscWrap s.params (s.draws + 6 * i) (before i).phase

/-- The output of each sample of a chunk, from the phase before it (R119, R128). -/
theorem oscBefore_chunkOutput (s : State) (tx : Tx) (data : StackData) (f w q : Port) (st : OscState) (n : Nat) :
    ChunkOutput n
      (fun i => oscOutput (s.draws + 6 * i + 1) (oscWrapped s (oscBefore s tx data f w q st) i) ((w.read data).get i) ((q.read data).get i))
      st.output (oscBefore s tx data f w q st n).output :=
  sampleLoop_chunkOutput OscState.output
    (result := fun i x =>
      oscOutput (s.draws + 6 * i + 1) (oscWrap s.params (s.draws + 6 * i) x.phase) ((w.read data).get i) ((q.read data).get i))
    (fun _ _ => rfl) st n

/-- Settles O27: the phases are the kernel's state before each sample, and each output is that of its shape. -/
theorem oscCompletesWithWrappedPhases : Obligations.OscCompletesWithWrappedPhases := by
  intro s tx pos S pf pw pq po phase0 hat
  let before := oscBefore s tx S.data pf pw pq ⟨po, phase0⟩
  exact ⟨_, (before pos.n).output, fun i => (before i).phase, oscWrapped s before, _, fun i j => s.draws + 6 * i + j,
    execOsc_at hat, nodeCallDone_commitNode hat _ _ _, rfl,
    fun i _ => ⟨rfl, oscOutput_saw _, oscOutput_pulse _, oscOutput_silence _, rfl⟩,
    oscBefore_chunkOutput ..⟩

end Sys2Proof.Machine
end

section
/-! SUPPORT. The waveform selector (R127), and the algebra of addition and multiplication (R123, R126). -/

namespace Sys2Proof.Machine

/-! The waveform selector. -/

theorem clamp01_of_nan {x : F32} (h : isNaN x = true) : clamp01 x = x := by
  simp [clamp01, fgt, flt_nan_left h, flt_nan_right h]

theorem clamp01_of_flt {x : F32} (h : flt x f0 = true) : clamp01 x = f0 := if_pos h

theorem clamp01_of_fgt {x : F32} (hlow : ¬ flt x f0 = true) (h : fgt x f1 = true) : clamp01 x = f1 :=
  (if_neg hlow).trans (if_pos h)

theorem clamp01_of_between {x : F32} (hlow : ¬ flt x f0 = true) (hhigh : ¬ fgt x f1 = true) : clamp01 x = x :=
  (if_neg hlow).trans (if_neg hhigh)

theorem isFinite_of_value_between {x : F32} (h0 : 0 ≤ value x) (h1 : value x ≤ 1) : isFinite x = true := by
  have hlow : fkey f0 ≤ fkey x := by rw [← not_lt, fkey_lt_fkey_iff, value_f0]; exact h0.not_gt
  have hhigh : fkey x ≤ fkey f1 := by rw [← not_lt, fkey_lt_fkey_iff, value_f1]; exact h1.not_gt
  have hmag : (magBits x : Int) ≤ fkey f1 := by rwa [← abs_fkey, abs_of_nonneg hlow]
  exact isFinite_iff.2 (Int.ofNat_lt.1 (hmag.trans_lt (by decide)))

/-- The clamped selector is finite, and its floor tells the values below 1.0 from the others. -/
theorem floor_clamp01 {x : F32} (hx : isNaN x = false) :
    isFinite (clamp01 x) = true ∧ ⌊value (clamp01 x)⌋ = if flt x f1 = true then 0 else 1 := by
  have hlt0 : flt x f0 = true ↔ value x < 0 := by rw [flt_iff_value hx (by decide), value_f0]
  have hlt1 : flt x f1 = true ↔ value x < 1 := by rw [flt_iff_value hx (by decide), value_f1]
  have hgt1 : fgt x f1 = true ↔ 1 < value x := by rw [fgt, flt_iff_value (by decide) hx, value_f1]
  rcases lt_or_ge (value x) 0 with hneg | hnonneg
  · rw [clamp01_of_flt (hlt0.2 hneg), value_f0, if_pos (hlt1.2 (hneg.trans one_pos))]
    exact ⟨by decide, Int.floor_zero⟩
  have hlow : ¬ flt x f0 = true := mt hlt0.1 hnonneg.not_gt
  rcases lt_trichotomy (value x) 1 with hlt | heq | hgt
  · rw [clamp01_of_between hlow (mt hgt1.1 hlt.not_gt), if_pos (hlt1.2 hlt), Int.floor_eq_zero_iff]
    exact ⟨isFinite_of_value_between hnonneg hlt.le, hnonneg, hlt⟩
  · rw [clamp01_of_between hlow (mt hgt1.1 heq.not_gt), if_neg (mt hlt1.1 heq.not_lt), heq]
    exact ⟨isFinite_of_value_between hnonneg heq.le, Int.floor_one⟩
  · rw [clamp01_of_fgt hlow (hgt1.2 hgt), value_f1, if_neg (mt hlt1.1 hgt.not_gt)]
    exact ⟨by decide, Int.floor_one⟩

theorem oscShape_of_nan (d : Nat) {x : F32} (h : isNaN x = true) : oscShape d x = .silence := by
  have hsel := (isNaN_ffloor_iff d x).2 h
  simp [oscShape, clamp01_of_nan h, feq_nan_left hsel]

theorem oscShape_of_not_nan (d : Nat) {x : F32} (h : isNaN x = false) :
    oscShape d x = if flt x f1 = true then .saw else .pulse := by
  obtain ⟨hfin, hfloor⟩ := floor_clamp01 h
  obtain ⟨hselFin, -, hsel⟩ := ffloor_exact d hfin
  have hnan := isNaN_of_isFinite hselFin
  have h0 : feq (ffloor d (clamp01 x)) f0 = true ↔ (⌊value (clamp01 x)⌋ : ℚ) = 0 := by
    rw [feq_iff_value hnan (by decide), hsel, value_f0]
  have h1 : feq (ffloor d (clamp01 x)) f1 = true ↔ (⌊value (clamp01 x)⌋ : ℚ) = 1 := by
    rw [feq_iff_value hnan (by decide), hsel, value_f1]
  rw [hfloor] at h0 h1
  by_cases hone : flt x f1 = true
  · rw [if_pos hone] at h0 ⊢
    exact if_pos (h0.2 Int.cast_zero)
  · rw [if_neg hone, Int.cast_one] at h0 h1
    rw [if_neg hone]
    exact (if_neg (mt h0.1 one_ne_zero)).trans (if_pos (h1.2 rfl))

/-- Settles O31, from the floor of the clamped selector: a NaN for a NaN, 0 below 1.0 and 1 from 1.0 up. -/
theorem waveformSelector : Obligations.WaveformSelector := by
  intro d x
  cases hx : isNaN x with
  | true => exact oscShape_of_nan d hx
  | false => exact oscShape_of_not_nan d hx

/-! Addition and multiplication. -/

section
variable (d : Nat) {a b : F32}

theorem fadd_comm (ha : isNaN a = false) (hb : isNaN b = false) : fadd d a b = fadd d b a := by
  cases hia : isInf a
  · cases hib : isInf b
    · simp [fadd, ha, hb, hia, hib, Int.add_comm (sunits a), Bool.and_comm (isNeg a)]
    · simp [fadd, ha, hb, hia, hib]
  · cases hib : isInf b
    · simp [fadd, ha, hb, hia, hib]
    · by_cases hs : isNeg a = isNeg b
      · rw [eq_infinity_of_isInf hia, eq_infinity_of_isInf hib, hs]
      · simp [fadd, ha, hb, hia, hib, hs, Ne.symm hs]

theorem fmul_comm (ha : isNaN a = false) (hb : isNaN b = false) : fmul d a b = fmul d b a := by
  have hneg : (isNeg a != isNeg b) = (isNeg b != isNeg a) := bne_comm
  cases hia : isInf a
  · cases hib : isInf b
    · simp [fmul, ha, hb, hia, hib, hneg, Nat.mul_comm (units a)]
    · simp [fmul, ha, hb, hia, hib, hneg]
  · cases hib : isInf b
    · simp [fmul, ha, hb, hia, hib, hneg]
    · simp [fmul, ha, hb, hia, hib, hneg, magBits_ne_zero_of_isInf hia, magBits_ne_zero_of_isInf hib]

end

/-- A common factor of a quotient changes no rounding. -/
theorem roundHalfEven_mul_right (num den : Nat) {k : Nat} (hk : 0 < k) :
    roundHalfEven (num * k) (den * k) = roundHalfEven num den := by
  have hlt (x y : Nat) : x * k < 2 * (y * k) ↔ x < 2 * y := by rw [← Nat.mul_assoc, Nat.mul_lt_mul_right hk]
  have heq (x y : Nat) : 2 * (x * k) = y * k ↔ 2 * x = y := by rw [← Nat.mul_assoc, Nat.mul_left_inj hk.ne']
  simp only [roundHalfEven, Nat.mul_div_mul_right _ _ hk, Nat.mul_mod_mul_right, hlt, heq]

theorem roundUnits_mul_self (n : Nat) {k : Nat} (hk : 0 < k) : roundUnits (n * k) k = roundUnits n 1 := by
  have hq : quantum (n * k) k = quantum n 1 := by rw [quantum, quantum, Nat.mul_div_cancel _ hk, Nat.div_one]
  rw [roundUnits, roundUnits, hq, Nat.mul_comm k, roundHalfEven_mul_right _ _ hk, Nat.one_mul]

theorem units_f1 : units f1 = 2 ^ 149 := by decide

/-- The units of 1.0 cancel in the quotient that is rounded, and those of `x` are representable. -/
theorem fmul_one (d : Nat) {x : F32} (hx : isNaN x = false) : fmul d x f1 = x := by
  have hf1 : isFinite f1 = true ∧ isNeg f1 = false ∧ magBits f1 ≠ 0 := by decide
  obtain ⟨hfin1, hneg1, hmag1⟩ := hf1
  cases hinf : isInf x with
  | true => rw [fmul_isInf_left d hinf (isNaN_of_isFinite hfin1) hmag1, hneg1, Bool.bne_false, ← eq_infinity_of_isInf hinf]
  | false =>
    have hfin : isFinite x = true := isFinite_eq_true_iff.2 ⟨hx, hinf⟩
    obtain ⟨-, hneg, hval⟩ := pack_roundUnits_exact (isNeg x) (representable_units hfin)
    rw [fmul_of_isFinite d hfin hfin1, hneg1, Bool.bne_false, units_f1, roundUnits_mul_self _ (by positivity)]
    exact eq_of_isNeg_of_value hneg (hval.trans (value_eq x).symm)

/-- Settles O33: the operations' case analysis is symmetric, and a product with 1.0 is exact. -/
theorem addAndMulCommuteAndMulByOneCopies : Obligations.AddAndMulCommuteAndMulByOneCopies :=
  ⟨fun d _ _ => fadd_comm d, fun d _ _ => fmul_comm d, fun d _ => fmul_one d⟩

end Sys2Proof.Machine
end

section
/-! SUPPORT. The step of the ASP under any turns that give it to the ASP (R236), and the instruction of an installed descriptor: its words decode to nothing else. -/

namespace Sys2Proof

/-- The largest register files: every 8-bit REG field names a register of them (R92). -/
def Params.fullFiles : Params := { Params.default with na := 256, nc := 256 }

theorem PortSpec.wf_fullFiles (q : PortSpec) : q.wf .fullFiles = true := by
  cases q with
  | audio k => exact decide_eq_true k.isLt
  | control k => exact decide_eq_true k.isLt
  | const v => rfl
  | freeAudio => rfl

theorem NodeDesc.wf_fullFiles (d : NodeDesc) : d.wf .fullFiles = true :=
  List.all_eq_true.2 fun q _ => q.wf_fullFiles

/-- The words of a descriptor determine its instruction: with the largest register files they are read back. -/
theorem toInstr_eq_of_encodeNode_eq {d d' : NodeDesc} (h : encodeNode d = encodeNode d') : d.toInstr = d'.toInstr :=
  Except.ok.inj <| calc
    Except.ok d.toInstr = decodeNode .fullFiles (encodeNode d) := (decodeNode_encodeNode d.wf_fullFiles).symm
    _ = decodeNode .fullFiles (encodeNode d') := by rw [h]
    _ = .ok d'.toInstr := decodeNode_encodeNode d'.wf_fullFiles

/-- Under any configuration, a descriptor's words are refused or decode to its instruction. -/
theorem eq_toInstr_of_decodeNode_encodeNode {p : Params} {d : NodeDesc} {i : Instr}
    (h : decodeNode p (encodeNode d) = .ok i) : i = d.toInstr := by
  obtain ⟨d', rfl, -, hwords⟩ := decodeNode_eq_ok h
  exact toInstr_eq_of_encodeNode_eq hwords

end Sys2Proof

namespace Sys2Proof.Machine

/-- The two ways a step is the ASP's (R236): no turn is listed, or its own is the first. -/
theorem step_of_asp_turn {s : State} (hwf : s.params.wf = true) (hturn : s.turns = [] ∨ s.turns.head? = some .asp) :
    step s = aspStep { s with turns := s.turns.tail } := by
  have hhead : s.turns.headD .asp = .asp := by
    rcases hturn with h | h <;> simp [List.headD_eq_head?_getD, h]
  rw [step_eq_turnStep hwf, hhead, turnStep]

theorem runCommand_of_decode {s : State} {msg : List Word} {i : Instr} (h : decodeCommand s.params msg = .ok i) :
    runCommand msg s = exec i s := by
  rw [runCommand, h]

/-- Settles O6: each clause is the ASP's step of that stage; the node's words decode to the instruction of its descriptor (`eq_toInstr_of_decodeNode_encodeNode`). -/
theorem stepRunsTheDecodedInstruction : Obligations.StepRunsTheDecodedInstruction := by
  refine ⟨fun s hwf => ⟨step_of_no_turns hwf, fun rest hturns => ?_⟩, ?_, ?_, ?_⟩
  · rw [step_of_asp_turn hwf (.inr (congrArg List.head? hturns)), hturns, List.tail_cons]
  · intro s tx msg i hwf hturn htx hst hdec
    rw [step_of_asp_turn hwf hturn, aspStep_apply (s := { s with turns := s.turns.tail }) htx hst]
    exact runCommand_of_decode hdec
  · intro s tx ev rest i hwf hturn htx hst hev hdec
    obtain rfl : decodeEvent ev = i := Except.ok.inj hdec
    rw [step_of_asp_turn hwf hturn]
    exact aspStep_event htx hst hev
  · intro s tx pos S node i hwf hturn htx hst hS hb hk hdec
    obtain rfl : i = node.desc.toInstr := eq_toInstr_of_decodeNode_encodeNode hdec
    rw [step_of_asp_turn hwf hturn]
    exact aspStep_node htx hst hS hb hk

end Sys2Proof.Machine
end

section
/-! SUPPORT. The held-note BitSet (R160 to R164): what each operation does to one member, and the readout. -/

namespace Sys2Proof.Machine

/-- The mask of index `i` has bit `i` and no other. -/
theorem getLsbD_mask (i j : BitVec 8) : (1#256 <<< i.toNat).getLsbD j.toNat = decide (j = i) := by
  rw [← BitVec.twoPow_eq, BitVec.getLsbD_twoPow, decide_eq_true i.isLt, Bool.true_and, decide_eq_decide, BitVec.toNat_inj]
  exact eq_comm

theorem bitContains_bitSet (held : BitVec 256) (i j : BitVec 8) :
    bitContains (bitSet held i) j = (decide (j = i) || bitContains held j) := by
  rw [bitContains, bitSet, BitVec.getLsbD_or, getLsbD_mask, Bool.or_comm, bitContains]

theorem bitContains_bitClear (held : BitVec 256) (i j : BitVec 8) :
    bitContains (bitClear held i) j = (!decide (j = i) && bitContains held j) := by
  rw [bitContains, bitClear, BitVec.getLsbD_and, BitVec.getLsbD_not, getLsbD_mask, decide_eq_true j.isLt, Bool.true_and,
    Bool.and_comm, bitContains]

@[simp] theorem bitContains_bitClearAll (j : BitVec 8) : bitContains bitClearAll j = false := BitVec.getLsbD_zero

theorem mem_bitIter {held : BitVec 256} {n : Nat} : n ∈ bitIter held ↔ n < 256 ∧ held.getLsbD n = true := by
  simp only [bitIter, List.mem_filter, List.mem_range]

/-- Settles O44: the readout filters the indices in ascending order, the rest is bit by bit. -/
theorem heldNoteBitSetLaws : Obligations.HeldNoteBitSetLaws :=
  fun held i j => ⟨bitContains_bitSet held i j, bitContains_bitClear held i j, bitContains_bitClearAll j,
    mem_bitIter.trans (and_iff_right j.isLt), fun _ hn => (mem_bitIter.1 hn).1, List.pairwise_lt_range.filter _⟩

/-- A note's place in the set is its own number (R27, R100). -/
theorem eq_noteIndex_iff {i : BitVec 8} {note : BitVec 7} : i = noteIndex note ↔ i.toNat = note.toNat := by
  rw [← BitVec.toNat_inj, noteIndex, BitVec.toNat_setWidth, Nat.mod_eq_of_lt (note.isLt.trans (by decide))]

end Sys2Proof.Machine
end

section
/-! SUPPORT. The registers an event writes (R176, R178): gate, pitch and TIME_REG of one register file, and what stands in them afterwards. -/

namespace Sys2Proof.Machine

/-- What a well-formed configuration says of the registers and the table that events use (R10, R167). -/
theorem midiParams_of_wf {p : Params} (h : p.wf = true) :
    p.gateCreg < p.nc ∧ p.pitchCreg < p.nc ∧ p.pitchCreg ≠ p.gateCreg ∧ p.timeRegOk = true ∧ p.noteFreq.length = 128 := by
  simp only [Params.wf, decide_eq_true_eq] at h
  obtain ⟨-, -, -, hpitch, hgate, hne, -, -, -, -, -, -, htime, hlen⟩ := h
  exact ⟨hgate, hpitch, hne, htime, hlen⟩

@[simp] theorem writeGatePitch_areg (p : Params) (gate pitch : F32) (d : StackData) :
    (writeGatePitch p gate pitch d).areg = d.areg := rfl

theorem writeGatePitch_creg_ne {p : Params} {r : Nat} (hgate : r ≠ p.gateCreg) (hpitch : r ≠ p.pitchCreg) (gate pitch : F32)
    (d : StackData) : (writeGatePitch p gate pitch d).creg[r]? = d.creg[r]? := by
  simp [writeGatePitch, List.getElem?_set_ne hgate.symm, List.getElem?_set_ne hpitch.symm]

theorem clearTime_areg_ne {p : Params} {r : Nat} (h : p.timeReg ≠ .audio r) (d : StackData) :
    (clearTime p d).areg[r]? = d.areg[r]? := by
  unfold clearTime
  split
  next => rfl
  next k hk => exact List.getElem?_set_ne fun hkr => h (by rw [hk, hkr])

theorem clearTime_creg_ne {p : Params} {r : Nat} (h : p.timeReg ≠ .control r) (d : StackData) :
    (clearTime p d).creg[r]? = d.creg[r]? := by
  unfold clearTime
  split
  next k hk => exact List.getElem?_set_ne fun hkr => h (by rw [hk, hkr])
  next => rfl

theorem clearTime_areg_self {p : Params} {r : Nat} (h : p.timeReg = .audio r) {d : StackData} (hr : r < d.areg.length) :
    (clearTime p d).areg[r]? = some zeroSamples := by
  simp [clearTime, h, hr]

theorem clearTime_creg_self {p : Params} {r : Nat} (h : p.timeReg = .control r) {d : StackData} (hr : r < d.creg.length) :
    (clearTime p d).creg[r]? = some f0 := by
  simp [clearTime, h, hr]

/-- One register file after an event: `TIME_REG` cleared if the channel is retriggered, then gate and pitch (R176, R178). -/
def eventData (p : Params) (cleared : Bool) (gate pitch : F32) (d : StackData) : StackData :=
  writeGatePitch p gate pitch (if cleared then clearTime p d else d)

section
variable {p : Params} {cleared : Bool} {gate pitch : F32} {d : StackData}

theorem eventData_areg_of_kept {r : Nat} (h : p.timeReg ≠ .audio r ∨ cleared = false) :
    (eventData p cleared gate pitch d).areg[r]? = d.areg[r]? := by
  rw [eventData, writeGatePitch_areg]
  split
  next hcleared => exact clearTime_areg_ne (h.resolve_right (by simp [hcleared])) d
  next => rfl

theorem eventData_creg_of_kept {r : Nat} (hgate : r ≠ p.gateCreg) (hpitch : r ≠ p.pitchCreg)
    (h : p.timeReg ≠ .control r ∨ cleared = false) : (eventData p cleared gate pitch d).creg[r]? = d.creg[r]? := by
  rw [eventData, writeGatePitch_creg_ne hgate hpitch]
  split
  next hcleared => exact clearTime_creg_ne (h.resolve_right (by simp [hcleared])) d
  next => rfl

/-- Gate and pitch are two registers that exist (R10), so each holds its own value. -/
theorem eventData_gate_pitch (hp : p.wf = true) (hd : d.wf p = true) :
    (eventData p cleared gate pitch d).creg[p.gateCreg]? = some gate ∧
      (eventData p cleared gate pitch d).creg[p.pitchCreg]? = some pitch := by
  obtain ⟨hgate, hpitch, hne, -, -⟩ := midiParams_of_wf hp
  have hlen : (if cleared then clearTime p d else d).creg.length = p.nc :=
    ((wf_iff p _).1 (by split <;> simpa using hd)).2
  simp [eventData, writeGatePitch, hlen, hgate, hpitch, List.getElem_set_ne hne]

/-- `TIME_REG` is a register that exists and is neither gate nor pitch (R10), so clearing it stands. -/
theorem eventData_time (hp : p.wf = true) (hd : d.wf p = true) :
    match p.timeReg with
    | .control r => (eventData p true gate pitch d).creg[r]? = some f0
    | .audio r => (eventData p true gate pitch d).areg[r]? = some zeroSamples := by
  obtain ⟨-, -, -, htime, -⟩ := midiParams_of_wf hp
  obtain ⟨haudio, hcontrol, hpitch, hgate⟩ := timeReg_constraints_of_timeRegOk htime
  obtain ⟨hna, hnc⟩ := (wf_iff p d).1 hd
  split
  next r hr =>
    rw [eventData, writeGatePitch_creg_ne (fun h => hgate (h ▸ hr)) (fun h => hpitch (h ▸ hr)), if_pos rfl]
    exact clearTime_creg_self hr (hnc ▸ hcontrol r hr)
  next r hr =>
    rw [eventData, writeGatePitch_areg, if_pos rfl]
    exact clearTime_areg_self hr (hna ▸ haudio r hr)

end

end Sys2Proof.Machine
end

section
/-! SUPPORT. The four MIDI events (R170 to R175): each but an ignored Other leaves `eventData` in every active channel, and its completion and frame follow from that. -/

namespace Sys2Proof.Machine

/-- Every active channel's register file is that of the event's writes, with the gate and the pitch of the state it ends in (R176, R178). -/
def EventWrote (s : State) (i : Instr) (t : State) : Prop :=
  ∀ k, t.stack k = (s.stack k).map fun S =>
    { S with data := eventData s.params (retriggers s.params i k) (gateValue t.heldCount) t.pitch S.data }

namespace EventWrote
variable {s t : State} {i : Instr} (h : EventWrote s i t)
include h

theorem areg_of_kept {k r : Nat} (hkept : s.params.timeReg ≠ .audio r ∨ retriggers s.params i k = false) (j : Nat) :
    t.areg k r j = s.areg k r j := by
  rw [State.areg, State.areg, h k, Option.bind_map]
  simp only [Function.comp_def, eventData_areg_of_kept hkept]

theorem creg_of_kept {k r : Nat} (hgate : r ≠ s.params.gateCreg) (hpitch : r ≠ s.params.pitchCreg)
    (hkept : s.params.timeReg ≠ .control r ∨ retriggers s.params i k = false) : t.creg k r = s.creg k r := by
  rw [State.creg, State.creg, h k, Option.bind_map]
  simp only [Function.comp_def, eventData_creg_of_kept hgate hpitch hkept]

theorem gatePitchWritten (hs : StoreInv s) (hparams : t.params = s.params) : GatePitchWritten t := by
  intro k T hT
  obtain ⟨S, hS, rfl⟩ := Option.map_eq_some_iff.1 ((h k).symm.trans hT)
  have hdata := (stackWf_iff.1 (hs.slots.stack (stack_eq_some.1 hS))).2.2
  rw [State.creg, State.creg, hT, hparams]
  exact eventData_gate_pitch hs.params hdata

theorem time_cleared (hs : StoreInv s) {k : Nat} (htarget : retriggers s.params i k = true) (hactive : (s.stack k).isSome = true) :
    match s.params.timeReg with
    | .control r => t.creg k r = some 0x00000000#32
    | .audio r => ∀ j < 256, t.areg k r j = some 0x00000000#32 := by
  obtain ⟨S, hS⟩ := Option.isSome_iff_exists.1 hactive
  have hdata := (stackWf_iff.1 (hs.slots.stack (stack_eq_some.1 hS))).2.2
  have htime := eventData_time (gate := gateValue t.heldCount) (pitch := t.pitch) hs.params hdata
  split
  next r hr => simpa [State.creg, h k, hS, htarget, hr] using htime
  next r hr =>
    rw [hr] at htime
    intro j hj
    simp [State.areg, h k, hS, htarget, htime, zeroSamples, hj]

end EventWrote

/-- A NoteOn of velocity 0 under `VEL0_NOTEOFF` (R169, R182). -/
theorem exec_noteon_vel0 {s : State} {v : BitVec 7} (h : s.params.vel0NoteOff = true ∧ v = 0#7) (c : BitVec 4) (n : BitVec 7) :
    exec (.noteon c n v) s = exec (.noteoff c n v) s := by
  obtain ⟨hvel, rfl⟩ := h
  simp [exec, execNoteon, execNoteoff, hvel]

theorem exec_noteon_sounding {s : State} {v : BitVec 7} (h : ¬ (s.params.vel0NoteOff = true ∧ v = 0#7)) (c : BitVec 4)
    (n : BitVec 7) : exec (.noteon c n v) s = .next (midiNoteOn (eventWord 0#4 c n v) c n s) := by
  simp [exec, execNoteon, h]

/-- The targets of a NoteOn that is none of velocity 0 (R179). -/
theorem retriggers_noteon {p : Params} {v : BitVec 7} (h : ¬ (p.vel0NoteOff = true ∧ v = 0#7)) (c : BitVec 4) (n : BitVec 7)
    (k : Nat) : retriggers p (.noteon c n v) k = decide (p.retrigScope = .allActive ∨ k = c.toNat) := by
  have hsounds : (p.vel0NoteOff && decide (v = 0#7)) = false := by simpa using h
  cases hscope : p.retrigScope <;> simp [retriggers, hsounds, hscope]

/-- `retrigger` clears `TIME_REG` of its targets, and no other channel is written (R178, R179). -/
theorem stack_retrigger (c : Nat) (s : State) (k : Nat) :
    (retrigger c s).stack k = (s.stack k).map fun S =>
      { S with data := if s.params.retrigScope = .allActive ∨ k = c then clearTime s.params S.data else S.data } := by
  unfold retrigger
  split
  next hscope =>
    rw [stack_modifyChannel]
    by_cases hk : k = c <;> simp [hscope, hk]
  next hscope => simp [hscope]

/-- `postEventWrite` ends an event whose other writes are the clears of its retrigger. -/
theorem eventWrote_postEventWrite {s u : State} {i : Instr} (hparams : u.params = s.params)
    (hstack : ∀ k, u.stack k = (s.stack k).map fun S =>
      { S with data := if retriggers s.params i k then clearTime s.params S.data else S.data }) :
    EventWrote s i (postEventWrite u) := by
  intro k
  rw [stack_postEventWrite, hstack k, Option.map_map, hparams]
  rfl

/-- An event that retriggers nothing only writes gate and pitch. -/
theorem eventWrote_postEventWrite_of_ch_eq {s u : State} {i : Instr} (hparams : u.params = s.params) (hch : u.ch = s.ch)
    (hnone : ∀ k, retriggers s.params i k = false) : EventWrote s i (postEventWrite u) := by
  refine eventWrote_postEventWrite hparams fun k => ?_
  simp [State.stack, hch, hnone k]

theorem eventWrote_noteon {s : State} {v : BitVec 7} (h : ¬ (s.params.vel0NoteOff = true ∧ v = 0#7)) (ev : Word) (c : BitVec 4)
    (n : BitVec 7) : EventWrote s (.noteon c n v) (midiNoteOn ev c n s) := by
  refine eventWrote_postEventWrite (by simp) fun k => ?_
  rw [stack_retrigger, retriggers_noteon h]
  simp [State.stack]

theorem eventWrote_noteoff (s : State) (c : BitVec 4) (n v : BitVec 7) : EventWrote s (.noteoff c n v) (midiNoteOff n s) :=
  eventWrote_postEventWrite_of_ch_eq rfl rfl fun _ => rfl

theorem eventWrote_reset (s : State) (c : BitVec 4) (n v : BitVec 7) : EventWrote s (.reset c n v) (midiReset s) :=
  eventWrote_postEventWrite_of_ch_eq rfl rfl fun _ => rfl

theorem eventWrote_other (s : State) (w : Word) : EventWrote s (.other w) (postEventWrite s) :=
  eventWrote_postEventWrite_of_ch_eq rfl rfl fun _ => rfl

/-- What an event does to the channels: it writes them all, or it is an Other that is ignored (R175). -/
theorem eventWrote_of_exec_midi {i : Instr} {s t : State} (hi : i.family = .midi) (h : exec i s = .next t) :
    EventWrote s i t ∨ t = s := by
  cases i with
  | noteon c n v =>
    by_cases hvel : s.params.vel0NoteOff = true ∧ v = 0#7
    · obtain rfl := Host.Outcome.next.inj ((exec_noteon_vel0 hvel c n).symm.trans h)
      exact .inl (eventWrote_postEventWrite_of_ch_eq rfl rfl fun _ => by simp [retriggers, hvel])
    · obtain rfl := Host.Outcome.next.inj ((exec_noteon_sounding hvel c n).symm.trans h)
      exact .inl (eventWrote_noteon hvel _ c n)
  | noteoff c n v => obtain rfl := Host.Outcome.next.inj h; exact .inl (eventWrote_noteoff s c n v)
  | reset c n v => obtain rfl := Host.Outcome.next.inj h; exact .inl (eventWrote_reset s c n v)
  | other w =>
    obtain rfl := Host.Outcome.next.inj h
    unfold midiOther
    split
    · exact .inl (eventWrote_other s w)
    · exact .inr rfl
  | _ => cases hi

theorem exec_midi_mirq {i : Instr} {s t : State} (hi : i.family = .midi) (h : exec i s = .next t)
    (hnot : ∀ c n v, i ≠ .noteon c n v) : t.mirq = s.mirq := by
  cases i with
  | noteon c n v => exact absurd rfl (hnot c n v)
  | noteoff c n v => obtain rfl := Host.Outcome.next.inj h; rfl
  | reset c n v => obtain rfl := Host.Outcome.next.inj h; rfl
  | other w =>
    obtain rfl := Host.Outcome.next.inj h
    unfold midiOther
    split <;> rfl
  | _ => cases hi

theorem noteFreq_getElem? {p : Params} (h : p.wf = true) (note : BitVec 7) :
    p.noteFreq[note.toNat]? = some (noteFreq p note) := by
  obtain ⟨-, -, -, -, hlen⟩ := midiParams_of_wf h
  have hlt : note.toNat < p.noteFreq.length := hlen ▸ note.isLt
  simp [noteFreq, hlt]

/-- Settles O39: `midiNoteOn_eq` gives the MIDI state and the mirror, `EventWrote` the registers. -/
theorem noteOnCompletes : Obligations.NoteOnCompletes := by
  intro s c n v hinv
  have hs := (inv_iff.1 hinv).1
  refine ⟨fun hvel => exec_noteon_vel0 hvel c n, fun hvel => ⟨_, exec_noteon_sounding hvel c n, ?_⟩⟩
  have hwrote := eventWrote_noteon hvel (eventWord 0#4 c n v) c n
  have heq := midiNoteOn_eq (eventWord 0#4 c n v) c n s
  refine ⟨fun i => ?_, congrArg State.heldCount heq, ?_, congrArg State.mirq heq,
    hwrote.gatePitchWritten hs (by simp [midiNoteOn]), fun k htarget => ?_⟩
  · rw [congrArg State.held heq, bitContains_bitSet, decide_eq_decide.2 eq_noteIndex_iff]
  · rw [congrArg State.pitch heq, noteFreq_getElem? hs.params]
  · exact hwrote.time_cleared hs (by rw [retriggers_noteon hvel, decide_eq_true htarget])

/-- Settles O40: the counter and the set are as `midiNoteOff` is written, `EventWrote` gives the registers. -/
theorem noteOffCompletes : Obligations.NoteOffCompletes := by
  intro s c n v hinv
  refine ⟨_, rfl, fun i => ?_, (Nat.max_zero _).symm, rfl, (eventWrote_noteoff s c n v).gatePitchWritten (inv_iff.1 hinv).1 rfl⟩
  rw [← decide_eq_decide.2 eq_noteIndex_iff]
  exact bitContains_bitClear ..

/-- Settles O41: a Reset retriggers no channel, so `EventWrote` keeps every register but gate and pitch. -/
theorem midiResetCompletes : Obligations.MidiResetCompletes := by
  intro s c n v hinv
  have hwrote := eventWrote_reset s c n v
  exact ⟨_, rfl, bitContains_bitClearAll, rfl, rfl, hwrote.gatePitchWritten (inv_iff.1 hinv).1 rfl,
    congrFun (nodes_postEventWrite _), fun _ _ => hwrote.areg_of_kept (.inr rfl),
    fun _ _ hgate hpitch => hwrote.creg_of_kept hgate hpitch (.inr rfl)⟩

/-- Settles O42, by `OTHER_WRITES`: `postEventWrite` alone, or nothing. -/
theorem otherEventCompletes : Obligations.OtherEventCompletes := by
  intro s w hinv
  have hwrote := eventWrote_other s w
  refine ⟨fun hwrites => ⟨postEventWrite s, congrArg Host.Outcome.next (if_pos hwrites), rfl,
    hwrote.gatePitchWritten (inv_iff.1 hinv).1 rfl, congrFun (nodes_postEventWrite s), fun _ _ => hwrote.areg_of_kept (.inr rfl),
    fun _ _ hgate hpitch => hwrote.creg_of_kept hgate hpitch (.inr rfl)⟩, fun hsilent => ?_⟩
  exact congrArg Host.Outcome.next (if_neg (by simp [hsilent]))

/-- Settles O43: `exec_midi_frame` and `exec_midi_nodes` keep the rest of the state, `EventWrote` the registers. -/
theorem midiEventFrame : Obligations.MidiEventFrame := by
  intro s t i hi h
  have heq := exec_midi_frame hi h
  refine ⟨by rw [heq]; rfl, by rw [heq], by rw [heq], by rw [heq], by rw [heq], congrFun (exec_midi_nodes hi h),
    fun k r hgate hpitch hkept => ?_, fun k r j hkept => ?_, fun hnot =>
      ⟨(exec_midi_pitch hi h).resolve_right fun ⟨c, n, v, hnoteon, _⟩ => hnot c n v hnoteon, exec_midi_mirq hi h hnot⟩⟩
  · rcases eventWrote_of_exec_midi hi h with hwrote | rfl
    · exact hwrote.creg_of_kept hgate hpitch hkept
    · rfl
  · rcases eventWrote_of_exec_midi hi h with hwrote | rfl
    · exact hwrote.areg_of_kept hkept j
    · rfl

end Sys2Proof.Machine
end

section
/-! SUPPORT. The structural commands (R185 to R197): the whole next state of each for a channel in range, and the silence of fresh registers. -/

namespace Sys2Proof.Machine

section
variable {s : State} {c : BitVec 8}

/-! A channel in range (R190, R192, R194). -/

theorem exec_setch_of_lt (hc : c.toNat < s.params.nch) (ds : List NodeDesc) :
    exec (.setch c ds) s = .next (setSlot s c.toNat (some (installedStack s.params ds))) :=
  congrArg Host.Outcome.next (if_pos hc)

theorem exec_replace_of_lt (hc : c.toNat < s.params.nch) (ds : List NodeDesc) :
    exec (.replace c ds) s = .next (replaceNodes c.toNat (ds.map installNode) s) :=
  congrArg Host.Outcome.next (if_pos hc)

theorem exec_rmch_of_lt (hc : c.toNat < s.params.nch) : exec (.rmch c) s = .next (setSlot s c.toNat none) :=
  congrArg Host.Outcome.next (if_pos hc)

end

/-- Settles O50: the range check comes first in each of the three meanings. -/
theorem channelOutOfRangeIsIgnored : Obligations.ChannelOutOfRangeIsIgnored := by
  intro s c ds hc
  have hout : ¬ c.toNat < s.params.nch := Nat.not_lt.2 hc
  exact ⟨congrArg Host.Outcome.next (if_neg hout), congrArg Host.Outcome.next (if_neg hout),
    congrArg Host.Outcome.next (if_neg hout)⟩

section
variable {s : State} {k : Nat}

/-- Every register of a channel with the register file of `zero_stackdata()` is `+0.0` (R190). -/
theorem registers_zero_of_stack {S : Stack} {p : Params} (hS : s.stack k = some S) (hdata : S.data = zeroStackData p) :
    (∀ r < p.na, ∀ j < 256, s.areg k r j = some f0) ∧ (∀ r < p.nc, s.creg k r = some f0) := by
  refine ⟨fun r hr j hj => ?_, fun r hr => ?_⟩
  · simp [State.areg, hS, hdata, zeroStackData, zeroSamples, hr, hj]
  · simp [State.creg, hS, hdata, zeroStackData, hr]

/-- An empty slot, or one that does not exist, is not written (R193). -/
theorem modifyChannel_of_stack_eq_none (h : s.stack k = none) (f : Stack → Stack) : modifyChannel k f s = s := by
  have hch : s.ch.modify k (Option.map f) = s.ch := by
    refine List.ext_getElem? fun i => ?_
    rw [List.getElem?_modify]
    split_ifs with hi
    · subst hi
      rcases stack_eq_none.1 h with hslot | hslot <;> rw [hslot] <;> rfl
    · exact Option.map_id_apply
  rw [modifyChannel, hch]

end

/-- Settles O45: the slot is overwritten by the installed stack, whose registers are fresh (`registers_zero_of_stack`). -/
theorem setChannelInstallsAFreshStack : Obligations.SetChannelInstallsAFreshStack := by
  intro s c ds hinv hc
  have hslot : c.toNat < s.ch.length := (inv_iff.1 hinv).1.slots.1 ▸ hc
  have hstack := stack_setSlot_self (some (installedStack s.params ds)) hslot
  exact ⟨_, exec_setch_of_lt hc ds, rfl, fun k hk => List.getElem?_set_ne hk.symm, congrArg (Option.map Stack.nodes) hstack,
    registers_zero_of_stack hstack rfl⟩

/-- Settles O46, by whether the slot is active: only an active one is written (`modifyChannel_of_stack_eq_none`). -/
theorem replaceNodesKeepsTheRegisterFile : Obligations.ReplaceNodesKeepsTheRegisterFile := by
  intro s c ds hinv hc
  rw [exec_replace_of_lt hc, replaceNodes]
  refine ⟨fun hempty => ?_, fun S hS => ⟨_, rfl, rfl, fun k hk => ?_, ?_⟩⟩
  · rw [modifyChannel_of_stack_eq_none hempty]
  · exact List.getElem?_modify_ne _ _ hk.symm
  · rw [stack_modifyChannel, if_pos rfl, hS]
    rfl

/-- Settles O47: the slot is overwritten by Empty. -/
theorem removeChannelEmptiesTheSlot : Obligations.RemoveChannelEmptiesTheSlot := by
  intro s c hinv hc
  have hslot : c.toNat < s.ch.length := (inv_iff.1 hinv).1.slots.1 ▸ hc
  exact ⟨_, exec_rmch_of_lt hc, rfl, List.getElem?_set_self hslot, fun k hk => List.getElem?_set_ne hk.symm⟩

/-- Settles O48: every active channel gets fresh registers, and a change of register files keeps every node. -/
theorem resetDataZeroesEveryActiveChannel : Obligations.ResetDataZeroesEveryActiveChannel := by
  intro s _
  refine ⟨resetData s, rfl, rfl, congrFun (nodes_mapActive_data _ s), fun k hactive => ?_⟩
  obtain ⟨S, hS⟩ := Option.isSome_iff_exists.1 hactive
  have hstack : (resetData s).stack k = some { S with data := zeroStackData s.params } := by
    rw [resetData, stack_mapActive, hS]
    rfl
  exact registers_zero_of_stack hstack rfl

/-- A header with a reserved bit set is no command's, whatever its other fields and the payload (R105, R185). -/
theorem decodeCommand_of_reserved {h : Word} (hreserved : field h 4 4 ≠ 0#4 ∨ field h 24 8 ≠ 0#8) (p : Params)
    (payload : List Word) : decodeCommand p (h :: payload) = .error .hdrReserved :=
  if_pos hreserved

/-- Settles O49: a header of OP 4 with clean reserved bits is that of its own fields (`commandHeader_fields`), and is read back. -/
theorem addNodeSetsUnimplOnly : Obligations.AddNodeSetsUnimplOnly := by
  refine ⟨fun s c n payload => rfl, fun p h payload hop =>
    ⟨fun h7 h31 => ?_, fun hreserved => decodeCommand_of_reserved hreserved p payload⟩⟩
  have hop : field h 0 4 = 4#4 := hop
  have hheader := commandHeader_fields h7 h31
  rw [hop] at hheader
  have hdecoded := decodeCommand_op4 p (field h 8 8) (field h 16 8) payload
  rwa [hheader] at hdecoded

end Sys2Proof.Machine
end

section
/-! SUPPORT. The drain (R185, R186, R207): popping a message, and discarding a malformed one. -/

namespace Sys2Proof.Machine

theorem runCommand_of_decode_error {s : State} {msg : List Word} {e : DecodeError} (h : decodeCommand s.params msg = .error e) :
    runCommand msg s = .next (raiseStatus .badcmd s) := by
  rw [runCommand, h]

/-- Settles O7: the popped message is run from the resumed drain, and raises BADCMD only. -/
theorem malformedCommandSetsBadcmdOnly : Obligations.MalformedCommandSetsBadcmdOnly := by
  intro s tx msg e hwf hturns htx hst hdec
  rw [step_of_no_turns hwf hturns, aspStep_apply htx hst]
  exact runCommand_of_decode_error hdec

/-- Settles O12, by whether CMDQ is empty. -/
theorem drainPopsInFifoOrder : Obligations.DrainPopsInFifoOrder := by
  intro s tx hwf hturns htx hst
  rw [step_of_no_turns hwf hturns]
  exact ⟨fun msg rest hq => aspStep_pop htx hst hq, fun hq => aspStep_drained htx hst hq⟩

end Sys2Proof.Machine
end

section
/-! SUPPORT. The installing block from any idle state (R188, R190, R214): the drain, the empty render phase and the result, one run after the other. -/

namespace Sys2Proof.Machine

/-- A run goes on from where a shorter one ends. -/
theorem run_add {j : Nat} {s t : State} (h : core.run j s = .next t) (k : Nat) : core.run (j + k) s = core.run k t := by
  induction j generalizing s with
  | zero =>
    obtain rfl : s = t := Host.Outcome.next.inj h
    rw [Nat.zero_add]
  | succ j ih =>
    obtain ⟨u, hstep, hrest⟩ := exists_step_of_run h
    rw [Nat.succ_add_eq_add_succ, Nat.add_succ, run_succ hstep, ih hrest]

section
variable {s : State} {tx : Tx}

/-- Past the last sample one step returns Continue (R213). -/
theorem run_finish {j : Nat} (hwf : s.params.wf = true) (hturns : s.turns = []) (htx : s.tx = some tx)
    (hst : tx.stage = .output j) (hj : tx.len ≤ j) : core.run 1 s = .next { s with tx := none, result := some .cont } :=
  run_aspStep hwf hturns (aspStep_finish htx hst hj) 0

/-- In a block of no samples the transaction returns Continue once no event is left: it passes over every channel slot and writes no sample (R209, R213). -/
theorem run_emptyBlock_result (hwf : s.params.wf = true) (hturns : s.turns = []) (htx : s.tx = some tx) (hst : tx.stage = .midi)
    (hev : tx.events = []) (hlen : tx.len = 0) (hch : s.ch.length = s.params.nch) :
    core.run (s.params.nch + 1 + 1 + 1) s = .next { s with tx := none, result := some .cont } := by
  have hdraws : (beginRender tx s).draws = s.draws := by simp [hlen]
  have hrender := run_render_empty (s := beginRender tx s) (c := 0) hwf hturns rfl rfl hlen hch (Nat.zero_add _)
  refine (run_aspStep hwf hturns (aspStep_beginRender htx hst hev) _).trans ((run_add hrender 1).trans ?_)
  refine Eq.trans (run_finish hwf hturns rfl rfl hlen.le) ?_
  exact congrArg (fun d => Host.Outcome.next { s with tx := none, result := some .cont, draws := d }) hdraws

/-- A connected call of no samples and no events, with CMDQ holding setch messages for channels in range only, installs them all and returns Continue; the rest of the state is kept. -/
theorem run_installingBlock {cfg : SetupList} {rate : BitVec 32} {later : List BlockIn} (hwf : s.params.wf = true)
    (hturns : s.turns = []) (htx : s.tx = none) (hb : s.blocks = emptyCall rate :: later) (hq : s.cmdq = setupMessages cfg)
    (hcfg : cfg.InRange s.params) (hch : s.ch.length = s.params.nch) :
    core.run (2 * cfg.length + 1 + (s.params.nch + 1 + 1 + 1) + 1) s = .next { s with
      ch := installAll s.params cfg s.ch, cmdq := [], tx := none, blocks := later, outBuf := [], result := some .cont } := by
  have hcall := (aspStep_call htx hb).trans (beginBlock_emptyCall _ rate)
  refine (run_aspStep hwf hturns hcall _).trans ?_
  have hdrain := run_drain_setup (s := { s with
    blocks := later
    outBuf := []
    result := none
    tx := some { events := [], len := 0, rate := rate, chout := [], stage := .drain } }) hwf hturns rfl rfl hq hcfg
  refine (run_add hdrain _).trans ?_
  exact run_emptyBlock_result hwf hturns rfl rfl rfl rfl ((installAll_length ..).trans hch)

end

/-- Settles O55: the run ends in the state of `run_installingBlock`, whose slots are those of `installAll` (`installAll_getElem?`). -/
theorem installingBlockInstallsEveryChannel : Obligations.InstallingBlockInstallsEveryChannel := by
  intro s cfg rate hinv hturns htx hq hb hcfg
  have hs := (inv_iff.1 hinv).1
  refine ⟨_, _, run_installingBlock hs.params hturns htx hb hq hcfg hs.slots.1, rfl, rfl, rfl, rfl, rfl, rfl, rfl, rfl, fun c hc => ?_⟩
  have hslot : c < s.ch.length := hs.slots.1 ▸ hc
  refine installAll_getElem? ?_ cfg
  rw [State.stack, List.getElem?_eq_getElem hslot]
  rfl

end Sys2Proof.Machine
end

section
/-! SUPPORT. The start of the driver's call (R205, R206): which blocks are too long, and what each call does; no other step of the machine can be refused. -/

namespace Sys2Proof.Machine

theorem tooLong_iff {p : Params} {len : Nat} : tooLong p len = true ↔ ∃ m, p.lMax = some m ∧ m < len := by
  unfold tooLong
  cases p.lMax <;> simp

section
variable {s : State} {blk : BlockIn}

theorem beginBlock_of_tooLong (h : tooLong s.params blk.buffer.length = true) : beginBlock blk s = .refused .blockTooLong :=
  if_pos h

theorem beginBlock_disconnected (h : tooLong s.params blk.buffer.length = false) (hcon : blk.connected = false) :
    beginBlock blk s = .next { s with outBuf := blk.buffer, result := some .stop } := by
  simp [beginBlock, h, hcon]

theorem beginBlock_connected (h : tooLong s.params blk.buffer.length = false) (hcon : blk.connected = true) :
    beginBlock blk s = .next { s with
      outBuf := blk.buffer
      result := none
      tx := some { events := blk.events, len := blk.buffer.length, rate := blk.rate, chout := [], stage := .drain } } := by
  simp [beginBlock, h, hcon]

end

/-- Settles O13: a call within `L_MAX` that is not connected only hands its buffer back. -/
theorem disconnectedBlockStopsWithNoOtherEffect : Obligations.DisconnectedBlockStopsWithNoOtherEffect := by
  intro s blk rest hwf hturns htx hb hcon hshort
  rw [step_of_no_turns hwf hturns, aspStep_call htx hb]
  exact beginBlock_disconnected hshort hcon

/-- Settles O14, by whether a call is pending, and whether its block is too long (`tooLong_iff`). -/
theorem idleHoldsItsStateUntilTheNextBlock : Obligations.IdleHoldsItsStateUntilTheNextBlock := by
  intro s hwf hturns htx
  rw [step_of_no_turns hwf hturns]
  refine ⟨aspStep_idle htx, fun blk rest hb hcon hlimit => ?_, fun blk rest m hb hmax hlong => ?_⟩
  · have hshort : tooLong s.params blk.buffer.length = false := by
      rw [← Bool.not_eq_true, tooLong_iff]
      rintro ⟨m, hmax, hlong⟩
      exact absurd (hlimit m hmax) (Nat.not_le.2 hlong)
    rw [aspStep_call htx hb]
    exact beginBlock_connected hshort hcon
  · rw [aspStep_call htx hb]
    exact beginBlock_of_tooLong (tooLong_iff.2 ⟨m, hmax, hlong⟩)

/-- The driver's next call, its block longer than `L_MAX`, is what the ASP takes up now (I21). -/
def OverlongCallNext (s : State) : Prop :=
  s.tx = none ∧ ∃ blk rest m, s.blocks = blk :: rest ∧ s.params.lMax = some m ∧ m < blk.buffer.length

theorem aspStep_next_or_overlong (s : State) :
    (∃ t, aspStep s = .next t) ∨ (aspStep s = .refused .blockTooLong ∧ OverlongCallNext s) := by
  cases htx : s.tx with
  | some tx => exact .inl (aspStep_next_of_tx htx)
  | none =>
    cases hb : s.blocks with
    | nil => exact .inl ⟨s, aspStep_idle htx hb⟩
    | cons blk rest =>
      rw [aspStep_call htx hb]
      cases hlong : tooLong s.params blk.buffer.length with
      | true =>
        obtain ⟨m, hmax, hlt⟩ := tooLong_iff.1 hlong
        exact .inr ⟨beginBlock_of_tooLong hlong, htx, blk, rest, m, hb, hmax, hlt⟩
      | false =>
        cases hcon : blk.connected with
        | true => exact .inl ⟨_, beginBlock_connected hlong hcon⟩
        | false => exact .inl ⟨_, beginBlock_disconnected hlong hcon⟩

/-- Only the ASP's own turn can be refused (R221). -/
theorem turnStep_next_or_overlong (x : Turn) (s : State) :
    (∃ t, turnStep x s = .next t) ∨ (turnStep x s = .refused .blockTooLong ∧ OverlongCallNext s) := by
  cases x with
  | asp => exact aspStep_next_or_overlong s
  | push _ | popMirror | readStatus | writeStatus _ | powerOn => exact .inl ⟨_, rfl⟩

/-- Settles O53: the step is that of whoever's turn it is, and only the ASP's start of an over-long block is refused. -/
theorem onlyABlockLongerThanTheLimitStopsTheMachine : Obligations.OnlyABlockLongerThanTheLimitStopsTheMachine := by
  intro s hinv
  rw [step_eq_turnStep (inv_iff.1 hinv).1.params]
  exact turnStep_next_or_overlong (s.turns.headD .asp) { s with turns := s.turns.tail }

end Sys2Proof.Machine
end

section
/-! SUPPORT. The mixer (R210), and the output phase (R212, R213): the driver's buffer after some of its samples, and the run that writes them all. -/

namespace Sys2Proof.Machine

/-- The last term of a sum is added last, with its own draw. -/
theorem sumFrom_concat (d : Nat) (x : F32) (xs : List F32) (y : F32) :
    sumFrom d x (xs ++ [y]) = fadd (d + xs.length) (sumFrom d x xs) y := by
  induction xs generalizing d x with
  | nil => rfl
  | cons z xs ih =>
    rw [List.cons_append, sumFrom, ih, sumFrom, List.length_cons, Nat.succ_add_eq_add_succ]

/-- The sum of one more channel is one more addition. -/
theorem sumFrom_take_succ (d : Nat) (x : F32) {xs : List F32} {q : Nat} (hq : q < xs.length) :
    sumFrom d x (xs.take (q + 1)) = fadd (d + q) (sumFrom d x (xs.take q)) xs[q] := by
  rw [← List.take_append_getElem hq, sumFrom_concat, List.length_take_of_le hq.le]

theorem mix_sum {p : Params} (h : p.mixMode = .sum) (d : Nat) (x : F32) (xs : List F32) : mix p d (x :: xs) = sumFrom d x xs := by
  simp only [mix, h]

theorem mix_overwrite {p : Params} (h : p.mixMode = .overwrite) (d : Nat) (xs : List F32) (x : F32) : mix p d (xs ++ [x]) = x := by
  cases xs with
  | nil => simp [mix, h]
  | cons y xs => simp [mix, h]

theorem mix_singleton (p : Params) (d : Nat) (x : F32) : mix p d [x] = x := by
  cases h : p.mixMode with
  | sum => exact mix_sum h d x []
  | overwrite => exact mix_overwrite h d [] x

/-- Settles O18: the sum so far is that of the first channels, one term longer at each addition (`sumFrom_concat`). -/
theorem mixerCombinesChannels : Obligations.MixerCombinesChannels := by
  intro p d
  refine ⟨rfl, mix_singleton p d, fun hsum x xs => ?_, fun h => mix_overwrite h d⟩
  refine ⟨fun q => sumFrom d x (xs.take q), fun q => d + q, rfl, fun q hq => ?_, ?_⟩
  · exact sumFrom_take_succ d x hq
  · show mix p d (x :: xs) = sumFrom d x (xs.take xs.length)
    rw [mix_sum hsum, List.take_length]

/-! The output phase. -/

/-- Sample `j` of an output phase begun in `s`: every sample before it has set aside a draw for each channel. -/
def outputSample (s : State) (tx : Tx) (j : Nat) : F32 :=
  clamp (mix s.params (s.draws + j * tx.chout.length) (choutColumn tx.chout j))

/-- Where an output phase begun in `s` stands after its first `j` samples: they are written, the rest of the driver's buffer is not. -/
def afterSamples (s : State) (tx : Tx) (j : Nat) : State :=
  { s with
    outBuf := (List.range j).map (outputSample s tx) ++ s.outBuf.drop j
    draws := s.draws + j * tx.chout.length
    tx := some { tx with stage := .output j } }

/-- With no channel rendered every sample is `+0.0`. -/
theorem outputSample_of_no_channel {tx : Tx} (h : tx.chout = []) (s : State) (j : Nat) : outputSample s tx j = f0 := by
  have hclamp : clamp f0 = f0 := by decide
  rw [outputSample, h]
  exact hclamp

/-- Writing the sample after the first `j` written ones leaves one more written. -/
theorem set_next_sample {f : Nat → F32} {buf : List F32} {j : Nat} (hj : j < buf.length) :
    ((List.range j).map f ++ buf.drop j).set j (f j) = (List.range (j + 1)).map f ++ buf.drop (j + 1) := by
  rw [List.set_append_right _ _ (by simp), List.length_map, List.length_range, Nat.sub_self, List.drop_eq_getElem_cons hj,
    List.set_cons_zero, List.range_succ, List.map_append, List.append_assoc]
  rfl

section
variable {s : State} {tx : Tx}

theorem afterSamples_zero (htx : s.tx = some tx) (hst : tx.stage = .output 0) : afterSamples s tx 0 = s := by
  have htx' : some { tx with stage := .output 0 } = s.tx := by rw [htx, ← hst]
  rw [afterSamples, htx', Nat.zero_mul]
  rfl

theorem aspStep_afterSamples {j : Nat} (hlen : tx.len = s.outBuf.length) (hj : j < tx.len) :
    aspStep (afterSamples s tx j) = .next (afterSamples s tx (j + 1)) := by
  have hbuf := set_next_sample (f := outputSample s tx) (hlen ▸ hj)
  have hdraws : s.draws + j * tx.chout.length + tx.chout.length = s.draws + (j + 1) * tx.chout.length := by
    rw [Nat.succ_mul, Nat.add_assoc]
  refine (aspStep_sample (s := afterSamples s tx j) (tx := { tx with stage := .output j }) rfl rfl hj).trans ?_
  rw [afterSamples, afterSamples, ← hbuf, ← hdraws]
  rfl

/-- The first `j` samples are written by one step each. -/
theorem run_samples (hwf : s.params.wf = true) (hturns : s.turns = []) (htx : s.tx = some tx) (hst : tx.stage = .output 0)
    (hlen : tx.len = s.outBuf.length) {j : Nat} (hj : j ≤ tx.len) : core.run j s = .next (afterSamples s tx j) := by
  induction j with
  | zero => rw [afterSamples_zero htx hst]; rfl
  | succ j ih =>
    rw [run_add (ih (Nat.le_of_succ_le hj)) 1]
    exact run_aspStep (s := afterSamples s tx j) hwf hturns (aspStep_afterSamples hlen hj) 0

end

/-- Settles O20: the run writes all the samples (`run_samples`), and one step more returns Continue. -/
theorem outputPhaseWritesEverySampleAndContinues : Obligations.OutputPhaseWritesEverySampleAndContinues := by
  intro s tx hwf hturns htx hst hlen
  have hsample : ∀ j < tx.len, ((List.range tx.len).map (outputSample s tx))[j]? = some (outputSample s tx j) := by
    intro j hj
    simp [hj]
  have hdrop : s.outBuf.drop tx.len = [] := List.drop_eq_nil_of_le hlen.ge
  refine ⟨(List.range tx.len).map (outputSample s tx), s.draws + tx.len * tx.chout.length, by simp, fun hnone j hj => ?_,
    fun j hj => ⟨_, hsample j hj⟩, ?_⟩
  · rw [hsample j hj, outputSample_of_no_channel hnone]
  · rw [run_add (run_samples hwf hturns htx hst hlen le_rfl) 1,
      run_finish (s := afterSamples s tx tx.len) (tx := { tx with stage := .output tx.len }) hwf hturns rfl rfl le_rfl,
      afterSamples, hdrop, List.append_nil]

end Sys2Proof.Machine
end

section
/-! SUPPORT. The controller's turns (R235, R237, R238): a listed turn is the step, what a push and a pop do to their queues, and STATUS bit by bit. -/

namespace Sys2Proof.Machine

/-- A listed turn is the step, and is used up (log entry 3). -/
theorem step_of_turn {s : State} {x : Turn} {rest : List Turn} (hwf : s.params.wf = true) (hturns : s.turns = x :: rest) :
    step s = turnStep x { s with turns := rest } := by
  rw [step_eq_turnStep hwf, hturns]
  rfl

theorem cmdPush_of_lt {s : State} (h : s.cmdq.length < s.params.cmdCap) (msg : List Word) :
    cmdPush msg s = { s with cmdq := s.cmdq ++ [msg], reply := some .ok } :=
  if_pos h

theorem cmdPush_of_full {s : State} (h : s.params.cmdCap ≤ s.cmdq.length) (msg : List Word) :
    cmdPush msg s = { s with reply := some .full } :=
  if_neg h.not_gt

theorem mirrorPop_of_nil {s : State} (h : s.mirq = []) : mirrorPop s = { s with reply := some .empty } := by
  rw [mirrorPop, h]

theorem mirrorPop_of_cons {s : State} {w : Word} {ws : List Word} (h : s.mirq = w :: ws) :
    mirrorPop s = { s with mirq := ws, reply := some (.event w) } := by
  rw [mirrorPop, h]

/-- The mask of the two status events (R222). -/
theorem statusMask_getLsbD : ∀ b < 32, (0x00000003#32).getLsbD b = decide (b < 2) := by decide

theorem readStatus_getLsbD (s : State) {b : Nat} (hb : b < 32) :
    (readStatus s).getLsbD b = (decide (b < 2) && s.status.getLsbD b) := by
  rw [readStatus, BitVec.getLsbD_and, statusMask_getLsbD b hb, Bool.and_comm]

theorem writeStatus_getLsbD (s : State) (w : Word) {b : Nat} (hb : b < 32) :
    (writeStatus w s).status.getLsbD b = if b < 2 then s.status.getLsbD b && !w.getLsbD b else s.status.getLsbD b := by
  rw [writeStatus_status, BitVec.getLsbD_and, BitVec.getLsbD_not, BitVec.getLsbD_and, statusMask_getLsbD b hb,
    decide_eq_true hb, Bool.true_and]
  by_cases hlt : b < 2
  · rw [if_pos hlt, decide_eq_true hlt, Bool.and_true]
  · rw [if_neg hlt, decide_eq_false hlt, Bool.and_false, Bool.not_false, Bool.and_true]

/-- Settles O8, by whether CMDQ is full. -/
theorem pushIsAcceptedOrRejected : Obligations.PushIsAcceptedOrRejected := by
  intro s msg rest hwf hturns
  rw [step_of_turn hwf hturns]
  exact ⟨fun hroom => congrArg Host.Outcome.next (cmdPush_of_lt (s := { s with turns := rest }) hroom msg),
    fun hfull => congrArg Host.Outcome.next (cmdPush_of_full (s := { s with turns := rest }) hfull msg)⟩

/-- Settles O9, by whether MIRQ is empty. -/
theorem mirrorPopTakesTheHead : Obligations.MirrorPopTakesTheHead := by
  intro s rest hwf hturns
  rw [step_of_turn hwf hturns]
  exact ⟨fun hq => congrArg Host.Outcome.next (mirrorPop_of_nil (s := { s with turns := rest }) hq),
    fun w ws hq => congrArg Host.Outcome.next (mirrorPop_of_cons (s := { s with turns := rest }) hq)⟩

/-- Settles O10, bit by bit: a read masks STATUS, a write clears under the same mask. -/
theorem statusReadAndWrite : Obligations.StatusReadAndWrite :=
  ⟨fun s _ hwf hturns => ⟨readStatus s, step_of_turn hwf hturns, fun _ hb => readStatus_getLsbD s hb⟩,
    fun s w _ hwf hturns => ⟨(writeStatus w s).status, step_of_turn hwf hturns, fun _ hb => writeStatus_getLsbD s w hb⟩⟩

end Sys2Proof.Machine
end
